-- ==== Sys2Proof/Word.lean ====
section
/-! DEFINITION. The word types of the block: every register, seed, operand and output element is a 64-bit
unsigned word (00_scope.md R7, R10, R11); the bus is byte addressed (20_memory.md R57). -/

namespace Sys2Proof

/-- A 64-bit word; `+`, `-`, `*` wrap modulo 2^64, `<<<` and `>>>` are logical, comparisons unsigned (R11). -/
abbrev Word := BitVec 64

/-- One byte lane of the host bus (R57). -/
abbrev Byte := BitVec 8

end Sys2Proof
end

