-- ==== Sys2Proof/Config.lean ====
section
/-! DEFINITION. What a platform fixes for one machine (00_scope.md R8, 92_eei_decisions.md open parameters), the
names of the two generator kinds, and the free values: constants without a body, of which nothing is known. -/

namespace Sys2Proof

/-- The two generator kinds (30_encoding.md R73). -/
inductive GenKind where
  | pcg64
  | xs64
deriving DecidableEq, Repr, Inhabited

/-- The platform parameters: `base` is BASE, the byte address of the register window (R50); `outDepth` is OUT_DEPTH,
the capacity of the output queue in words, `none` when it is unbounded (10_state.md R36). They are held in State,
which no step changes in them, so that a statement about every state holds for every platform (log 2). -/
structure Platform where
  base     : Nat
  outDepth : Option Nat
deriving DecidableEq, Repr

/-- FREE VALUE (log 6): the content of a word register that holds no value (10_state.md R25, item U5 of
93_implementation_defined.md). -/
opaque Config.freeWord : Nat → Word

/-- FREE VALUE (log 6): the content of `KIND` while it holds no value. -/
opaque Config.freeKind : Nat → GenKind

end Sys2Proof
end

