-- ==== Sys2Proof/Syntax.lean ====
section
/-! DEFINITION. The six commands (one constructor per row of spec/opcode_table.json, 30_encoding.md R72), and the
assembler lines that stand for a command together with its operands (30_encoding.md R79). -/

namespace Sys2Proof

/-- A decoded command word. The operands are not part of the word: they are the latches L_A, L_B, L_N (R71). -/
inductive Instr where
  /-- CONSTRUCT with its KIND field, any of the 256 identifiers (R73, R77). -/
  | construct (kind : BitVec 8)
  | destroy
  | next
  | rand
  | bias
  | unid
deriving DecidableEq, Repr

/-- Why a command word is illegal (30_encoding.md R74). -/
inductive IllegalWord where
  /-- `w[63:16] != 0` -/
  | reservedBits
  /-- `w[15:8] != 0` in a word that is not CONSTRUCT -/
  | kindNotZero
  /-- `w[7:0]` is no defined opcode -/
  | unknownOpcode
deriving DecidableEq, Repr

/-- One line of assembler text (R79); numbers as written, so they may be too large. -/
inductive Line where
  | construct (kind seed : Nat)
  | destroy
  | next (count : Nat)
  | rand (count min max : Nat)
  | bias (count numerator exponent : Nat)
  | unid (count : Nat)
deriving DecidableEq, Repr

end Sys2Proof
end

