-- ==== Sys2Proof/WellFormed.lean ====
section
/-! DEFINITION. The checks on what is written down: assembler lines (30_encoding.md R79) and platform parameters
(00_scope.md R8). A decoded command needs no check of its own: its one field has exactly the width of the KIND field,
and every one of the 256 identifiers is a command (30_encoding.md R73, R77). -/

namespace Sys2Proof

/-- The number fits a 64-bit operand register. -/
def fitsWord (n : Nat) : Bool := decide (n < 2 ^ 64)

/-- "kind is PCG64, XS64 or a number 0..255", and every other operand is a 64-bit unsigned number (R79). -/
def Line.wellFormed : Line → Bool
  | .construct kind seed => decide (kind < 256) && fitsWord seed
  | .destroy => true
  | .next count => fitsWord count
  | .rand count min max => fitsWord count && fitsWord min && fitsWord max
  | .bias count numerator exponent => fitsWord count && fitsWord numerator && fitsWord exponent
  | .unid count => fitsWord count

/-- BASE is a multiple of 64 and OUT_DEPTH is positive or unbounded (R8). -/
def Platform.wellFormed (p : Platform) : Bool :=
  decide (p.base % 64 = 0) &&
    match p.outDepth with
    | none => true
    | some d => decide (0 < d)

end Sys2Proof
end

