-- ==== Sys2Proof/Decode.lean ====
section
/-! DEFINITION. Byte lanes of a word (20_memory.md R57), the decoder of command words (30_encoding.md R77), total and
rejecting by name, and after it the encoder written from the same table (R70, R72). -/

namespace Sys2Proof

/-- The little-endian bytes of a word: byte `k` carries bits `[8k+7 : 8k]` (R57). -/
def bytesOfWord (v : Word) : List Byte :=
  (List.range 8).map fun k => v.extractLsb' (8 * k) 8

/-- The word whose little-endian bytes are given, the first in the low bits (R57). -/
def wordOfBytes : List Byte → Word
  | [] => 0
  | b :: bs => (wordOfBytes bs <<< 8) ||| b.setWidth 64

/-- The OPCODE field, bits [7:0] (R70). -/
def opcodeField (w : Word) : BitVec 8 := w.extractLsb' 0 8

/-- The KIND field, bits [15:8] (R70). -/
def kindField (w : Word) : BitVec 8 := w.extractLsb' 8 8

/-- The ZERO field, bits [63:16] (R70). -/
def zeroField (w : Word) : BitVec 48 := w.extractLsb' 16 48

/-- `Decode` of R77, in the order of its tests. It reads no state (R75). -/
def decode (w : Word) : Except IllegalWord Instr :=
  if zeroField w ≠ 0 then .error .reservedBits
  else if opcodeField w = 0x01#8 then .ok (.construct (kindField w))
  else if kindField w ≠ 0 then .error .kindNotZero
  else if opcodeField w = 0x02#8 then .ok .destroy
  else if opcodeField w = 0x10#8 then .ok .next
  else if opcodeField w = 0x11#8 then .ok .rand
  else if opcodeField w = 0x12#8 then .ok .bias
  else if opcodeField w = 0x13#8 then .ok .unid
  else .error .unknownOpcode

/-- The OPCODE number of a command (R72). -/
def opcodeOf : Instr → BitVec 8
  | .construct _ => 0x01#8
  | .destroy => 0x02#8
  | .next => 0x10#8
  | .rand => 0x11#8
  | .bias => 0x12#8
  | .unid => 0x13#8

/-- What a command puts into the KIND field: its identifier for CONSTRUCT, zero otherwise (R71, R73). -/
def kindFieldOf : Instr → BitVec 8
  | .construct kind => kind
  | .destroy | .next | .rand | .bias | .unid => 0

/-- The command word of a command: OPCODE from bit 0, KIND from bit 8, ZERO above (R70). -/
def encode (i : Instr) : Word := (kindFieldOf i).setWidth 64 <<< 8 ||| (opcodeOf i).setWidth 64

/-- The mask of the command's row of the opcode map (R72). -/
def rowMask : Instr → Word
  | .construct _ => 0xFFFFFFFFFFFF00FF#64
  | .destroy | .next | .rand | .bias | .unid => 0xFFFFFFFFFFFFFFFF#64

/-- The match value of the command's row of the opcode map (R72). -/
def rowMatch : Instr → Word
  | .construct _ => 0x0000000000000001#64
  | .destroy => 0x0000000000000002#64
  | .next => 0x0000000000000010#64
  | .rand => 0x0000000000000011#64
  | .bias => 0x0000000000000012#64
  | .unid => 0x0000000000000013#64

/-- Decoding from the bus: eight byte lanes make one command word (R57, R70); the rest of the list is handed back.
Fewer than eight bytes are no command word. -/
def decodeBytes (bytes : List Byte) : Option (Except IllegalWord Instr × List Byte) :=
  if bytes.length < 8 then none
  else some (decode (wordOfBytes (bytes.take 8)), bytes.drop 8)

/-- What the decoder reads from a table row's word of `nbits` bits, laid out as the bus lays it out. -/
def decodeTableWord (nbits w : Nat) : Option Instr :=
  match decodeBytes (bytesOfWord (BitVec.ofNat 64 (w % 2 ^ nbits))) with
  | some (.ok i, _) => some i
  | some (.error _, _) => none
  | none => none

end Sys2Proof
end

