-- ==== Sys2Proof/Machine/State.lean ====
section
/-! DEFINITION. The state of the block (10_state.md R20 lists it whole), the platform parameters and the model's own
fields beside it, the state after reset (R44), and the reasons a step can stop. INVENTORY.md '## State' has a line for
every field. -/

namespace Sys2Proof.Machine

/-- The sequencing bit PHASE (R28). -/
inductive Phase where
  | idle
  | run
deriving DecidableEq, Repr

/-- The result codes (60_exceptions.md R180). -/
inductive ResultCode where
  | success
  | allocationFailure
  | hardwareEntropyExhausted
  | argumentOutOfBounds
  | invalidInstance
  | illegalCommand
deriving DecidableEq, Repr

/-- The six registers of the window (R30); slots 6 and 7 are reserved and name no register (R38). -/
inductive Reg where
  | cmd
  | arg0
  | arg1
  | count
  | status
  | dout
deriving DecidableEq, Repr

/-- One answer of the entropy source (40_units_mixer_entropy.md R93). -/
structure Answer where
  ok : Bool
  v  : Word
deriving DecidableEq, Repr

/-- What the host got from one legal read: the register, and its data on the byte lanes of the bus, the byte at the
register's own address first (20_memory.md R57). -/
structure Observation where
  reg   : Reg
  bytes : List Byte
deriving DecidableEq, Repr

/-- The working values of a running command that can outlive one engine step (R42): the element counter `j`, the bit
index `k` and accumulator `acc` of BIAS, the word an `emit` waits to append (R36), the attempts the present
acquisition has used (R94), the first acquired value of a PCG64 hardware seeding (41_generator_core.md R114), and whether
a request to the entropy source is in flight (70_reset_and_hazards.md R211). -/
structure Work where
  j        : Nat
  k        : Nat
  acc      : Word
  pending  : Option Word
  attempts : Nat
  first    : Option Word
  inFlight : Bool
deriving DecidableEq, Repr

/-- The working values at the start of a command. -/
def Work.fresh : Work := ⟨0, 0, 0, none, 0, none, false⟩

/-- One move of the world outside the engine, or a grant of time to the engine (log 3). -/
inductive Event where
  /-- the host reads `width` bytes at a byte address -/
  | read (addr width : Nat)
  /-- the host writes these bytes, the first at the byte address given -/
  | write (addr : Nat) (bytes : List Byte)
  /-- the host's WAIT (30_encoding.md R79): STATUS is read until BUSY is 0; `popping` says whether the host reads DOUT
  meanwhile whenever OAVAIL is 1 -/
  | wait (popping : Bool)
  /-- the engine runs, for at most `n` micro-operations; `n` stays its slice until the next such event, so after
  `engine 0` a sampling command stands still until then. DESIGN CHOICE, log 17: fairness is the script's -/
  | engine (n : Nat)
  /-- the entropy source gives the answer to the oldest request not answered yet, or to the next attempt -/
  | entropy (a : Answer)
  /-- the entropy source will never answer the oldest request that a RESET dropped (70_reset_and_hazards.md R211) -/
  | noAnswer
  /-- the RESET input is pulsed (70_reset_and_hazards.md R210) -/
  | reset
deriving DecidableEq, Repr

/-- The machine. -/
structure State where
  /-- `S`, the generator's state word (R21) -/
  regS      : Word
  /-- `INC`, the PCG64 increment (R22) -/
  regInc    : Word
  /-- `KIND` (R23) -/
  kind      : GenKind
  /-- `VALID` (R24) -/
  valid     : Bool
  /-- `PHASE` (R28) -/
  phase     : Phase
  /-- `CODE` (R39) -/
  code      : ResultCode
  /-- `ARG0` (R32) -/
  arg0      : Word
  /-- `ARG1` (R33) -/
  arg1      : Word
  /-- `COUNT` (R34) -/
  count     : Word
  /-- `OQ`, head first (R36) -/
  oq        : List Word
  /-- `L_CMD` (R41) -/
  lCmd      : Word
  /-- `L_A` (R41) -/
  lA        : Word
  /-- `L_B` (R41) -/
  lB        : Word
  /-- `L_N` (R41) -/
  lN        : Word
  /-- the working values of the running command (R42) -/
  work      : Work
  /-- BASE and OUT_DEPTH (R43); no step changes them (log 2) -/
  platform  : Platform
  /-- model's own: the outside world's moves to come, the next one first (log 3) -/
  script    : List Event
  /-- model's own: the entropy source's answers to the coming attempts, the next one first (log 4) -/
  answers   : List Answer
  /-- model's own: the requests that a RESET dropped and whose answers are still to come (R211, log 18) -/
  dropped   : Nat
  /-- model's own: the most micro-operations one engine step makes (log 5); with 0 a sampling command stands still, since
  fairness is not the machine's (DESIGN CHOICE, log 17) -/
  slice     : Nat
  /-- model's own: how many free values have been handed out (log 6) -/
  freeCount : Nat
  /-- model's own: what the host's reads returned, oldest first (R223) -/
  observed  : List Observation
  /-- model's own: the never-cleared record of non-zero codes, oldest first (R185) -/
  failed    : List ResultCode
deriving DecidableEq, Repr

/-- The state after reset (R44). `regS`, `regInc`, `kind`, the latches and the working values hold no value in the
spec: DESIGN CHOICE, log 1. `platform`, `slice`: DESIGN CHOICE, logs 2 and 5. -/
def State.reset : State where
  regS      := 0
  regInc    := 0
  kind      := .pcg64
  valid     := false
  phase     := .idle
  code      := .success
  arg0      := 0
  arg1      := 0
  count     := 0
  oq        := []
  lCmd      := 0
  lA        := 0
  lB        := 0
  lN        := 0
  work      := Work.fresh
  platform  := ⟨0, none⟩
  script    := []
  answers   := []
  dropped   := 0
  slice     := 65536
  freeCount := 0
  observed  := []
  failed    := []

/-- Why a run stops with a fault. -/
inductive Fault where
  /-- Raised by a host access in the window that is not legal (20_memory.md R53): the block answers with the bus-error
  response and changes nothing, and R54 asks a model to treat it as a fault of the run. Safe. -/
  | busError (addr : Nat)
  /-- Raised by a host access that starts outside the window, which is no access to this block (R50, log 7). Safe. -/
  | outsideWindow (addr : Nat)
deriving DecidableEq, Repr

/-- Why a step has no meaning. -/
inductive Refusal where
  /-- Raised by an arm of `exec` whose instruction has no meaning yet; no arm raises it. Safe. -/
  | notModelled (mnemonic : String)
  /-- Raised by a host write of CMD, ARG0, ARG1 or COUNT while BUSY = 1: 70_reset_and_hazards.md R214 gives it no meaning
  and item U1 of 93_implementation_defined.md has the model refuse the script. Safe. -/
  | writeWhileBusy (reg : Reg)
deriving DecidableEq, Repr

end Sys2Proof.Machine
end

