-- ==== Sys2Proof/Machine/Units.lean ====
section
/-! DEFINITION. The two leaf units that seeding uses (40_units_mixer_entropy.md): the seed mixer and the entropy
arbiter's bounded-retry acquisition, as functions of words and of the entropy source's answers. -/

namespace Sys2Proof.Machine

/-- `x ^ (x >> n)`, the step the mixer and the xorshift engine repeat. -/
def xorShiftRight (n : Nat) (x : Word) : Word := x ^^^ (x >>> n)

/-- `x ^ (x << n)`. -/
def xorShiftLeft (n : Nat) (x : Word) : Word := x ^^^ (x <<< n)

/-- MIX_C1 (00_scope.md R9). -/
def mixC1 : Word := 0xBF58476D1CE4E5B9#64

/-- MIX_C2 (00_scope.md R9). -/
def mixC2 : Word := 0x94D049BB133111EB#64

/-- The seed mixer (R90; 90_conflicts.md C1). In each product of this model the constant stands first, which keeps Lean's
kernel from unfolding the product along it. -/
def mix64 (x : Word) : Word :=
  xorShiftRight 31 (mixC2 * xorShiftRight 27 (mixC1 * xorShiftRight 30 x))

/-- `MixRef` (R92): the chain value after one call, and the value the call returns; they are the same word. -/
def mixRef (t : Word) : Word × Word := (mix64 t, mix64 t)

/-- RETRY_LIMIT: the most attempts of one acquisition (R7, R95). -/
def retryLimit : Nat := 10

/-- Whether the arbiter takes an answer; `zg` is the zero guard (R94, R96). -/
def Answer.accepted (zg : Bool) (a : Answer) : Bool := a.ok && !(zg && decide (a.v = 0))

/-- How an acquisition stands once it has used the answers there are. -/
inductive Acquired where
  /-- an answer was accepted -/
  | value (v : Word)
  /-- ten attempts without an accepted answer -/
  | exhausted
  /-- the source has not answered the next attempt yet; so many attempts are used (R219) -/
  | waiting (used : Nat)
deriving DecidableEq, Repr

/-- `EntropyAcquire(zg)` (R94) with `left` attempts still allowed: how it stands, and the answers it left unused. -/
def acquire (zg : Bool) : (left : Nat) → List Answer → Acquired × List Answer
  | 0, answers => (.exhausted, answers)
  | left + 1, [] => (.waiting (retryLimit - (left + 1)), [])
  | left + 1, a :: answers => if a.accepted zg then (.value a.v, answers) else acquire zg left answers

end Sys2Proof.Machine
end

