-- ==== Sys2Proof/Machine/Generator.lean ====
section
/-! DEFINITION. The two bit-stream engines as functions of the generator registers (41_generator_core.md). -/

namespace Sys2Proof.Machine

/-- PCG_OUT_MUL (00_scope.md R9). -/
def pcgOutMul : Word := 0xAEF17502108EF2D9#64

/-- PCG_LCG_MUL (00_scope.md R9). -/
def pcgLcgMul : Word := 0x5851F42D4C957F2D#64

/-- The PCG64 output shift `(s >> 59) + 5`, 5 to 36 (R110). -/
def pcgShift (s : Word) : Nat := (s >>> 59).toNat + 5

/-- `pcg_output` (R110). -/
def pcgOutput (s : Word) : Word := xorShiftRight 43 (pcgOutMul * xorShiftRight (pcgShift s) s)

/-- `pcg_advance` (R111). -/
def pcgAdvance (s inc : Word) : Word := pcgLcgMul * s + inc

/-- `xs_advance` (R116): left 13, right 7, left 17, each step on the value of the one before. -/
def xsAdvance (s : Word) : Word := xorShiftLeft 17 (xorShiftRight 7 (xorShiftLeft 13 s))

/-- The generator's state word after one draw (R112, R117). -/
def advance (kind : GenKind) (inc s : Word) : Word :=
  match kind with
  | .pcg64 => pcgAdvance s inc
  | .xs64 => xsAdvance s

/-- The word one draw returns: the permutation of the state before the update for PCG64 (R112), the state after it for
XS64 (R117). -/
def output (kind : GenKind) (s : Word) : Word :=
  match kind with
  | .pcg64 => pcgOutput s
  | .xs64 => xsAdvance s

/-- The generator's state word after `n` draws. -/
def advanceN (kind : GenKind) (inc : Word) : Nat → Word → Word
  | 0, s => s
  | n + 1, s => advanceN kind inc n (advance kind inc s)

/-- The words `n` draws return, in draw order (R121). -/
def rawStream (kind : GenKind) (inc : Word) : Nat → Word → List Word
  | 0, _ => []
  | n + 1, s => output kind s :: rawStream kind inc n (advance kind inc s)

/-- The kind identifier of a kind (30_encoding.md R73). -/
def kindBits : GenKind → BitVec 8
  | .pcg64 => 0x00#8
  | .xs64 => 0x01#8

/-- The kind a kind identifier names, if it is a recognized one (R73). -/
def kindOfBits (k : BitVec 8) : Option GenKind :=
  if k = 0x00#8 then some .pcg64 else if k = 0x01#8 then some .xs64 else none

end Sys2Proof.Machine
end

