-- ==== Sys2Proof/Machine/Ops.lean ====
section
/-! DEFINITION. The named operations over the state: taking and completing a command, failing (`raise`, the block's one
form of exception, 60_exceptions.md R184) and succeeding, drawing, emitting, installing and discarding a generator
instance, and reset. -/

namespace Sys2Proof.Machine

/-- An accepted CMD write (30_encoding.md R76): the word and the three operands are latched and PHASE becomes RUN. -/
def State.accept (w : Word) (s : State) : State :=
  { s with lCmd := w, lA := s.arg0, lB := s.arg1, lN := s.count, phase := .run, work := Work.fresh }

/-- `raise <Code>` (R184): CODE and PHASE, nothing else of the block; the model's record of failures grows (R185). -/
def State.raise (c : ResultCode) (s : State) : State :=
  { s with code := c, phase := .idle, failed := s.failed ++ [c] }

/-- Successful completion (R76): CODE <- SUCCESS, PHASE <- IDLE. -/
def State.succeed (s : State) : State :=
  { s with code := .success, phase := .idle }

/-- Whether `emit` can append: OQ holds fewer than OUT_DEPTH words (10_state.md R36). -/
def State.hasRoom (s : State) : Bool :=
  match s.platform.outDepth with
  | none => true
  | some d => decide (s.oq.length < d)

/-- The word the next draw returns (R121). -/
def State.drawWord (s : State) : Word := output s.kind s.regS

/-- The state after one draw: S is written and nothing else (R121). -/
def State.drawn (s : State) : State := { s with regS := advance s.kind s.regInc s.regS }

/-- `emit(v)` with room in OQ: `v` goes to the tail (R36), and the element counter moves on. -/
def State.emit (v : Word) (s : State) : State :=
  { s with oq := s.oq ++ [v], work := { s.work with j := s.work.j + 1, pending := none } }

/-- A command's element is computed and its `emit` is due. -/
def State.due (v : Word) (s : State) : State :=
  { s with work := { s.work with pending := some v, k := 0, acc := 0 } }

/-- A command's element needs another draw, with these working values. -/
def State.carry (k : Nat) (acc : Word) (s : State) : State :=
  { s with work := { s.work with k := k, acc := acc } }

/-- An XS64 instance is installed (43_lifecycle.md R160): S, KIND, VALID; INC is not written (41_generator_core.md R118,
R119). -/
def State.installXs (v : Word) (s : State) : State :=
  { s with regS := v, kind := .xs64, valid := true }

/-- A PCG64 instance is installed (R160): S, INC with bit 0 set (R113, R114), KIND, VALID. -/
def State.installPcg (v inc : Word) (s : State) : State :=
  { s with regS := v, regInc := inc ||| 1, kind := .pcg64, valid := true }

/-- The instance is discarded (43_lifecycle.md R163): VALID <- 0, and S, INC and KIND hold no value, so they take free
values (10_state.md R25, item U5; log 6). -/
def State.discard (s : State) : State :=
  { s with
    valid := false
    regS := Config.freeWord s.freeCount
    regInc := Config.freeWord (s.freeCount + 1)
    kind := Config.freeKind (s.freeCount + 2)
    freeCount := s.freeCount + 3 }

/-- The arbiter has used answers of the entropy source: these are left, `used` attempts of the present acquisition are
spent (40_units_mixer_entropy.md R94), and `inFlight` says whether one more is requested and not answered yet. -/
def State.arbiter (rest : List Answer) (used : Nat) (inFlight : Bool) (s : State) : State :=
  { s with answers := rest, work := { s.work with attempts := used, inFlight := inFlight } }

/-- The first acquired value of a PCG64 hardware seeding is kept for the second acquisition (41_generator_core.md R114). -/
def State.keepFirst (v : Word) (s : State) : State :=
  { s with work := { s.work with first := some v } }

/-- A request to the entropy source is in flight: a running CONSTRUCT has made it and has not taken its answer. -/
def State.requestInFlight (s : State) : Bool := decide (s.phase = .run) && s.work.inFlight

/-- The entropy source answers: the oldest request that a RESET dropped, whose answer is ignored (70_reset_and_hazards.md
R211), or, with no such request, the block's present or next attempt (40_units_mixer_entropy.md R93; log 18). -/
def State.answered (a : Answer) (s : State) : State :=
  { s with
    answers := if s.dropped = 0 then s.answers ++ [a] else s.answers
    dropped := s.dropped - 1 }

/-- The entropy source will never answer the oldest request that a RESET dropped. -/
def State.unanswered (s : State) : State := { s with dropped := s.dropped - 1 }

/-- RESET (70_reset_and_hazards.md R210, R211): the block takes the reset state. An entropy request in flight is dropped:
its answer is lost if it has come, and will be ignored if it is still to come. What is not the block's (the platform, the
script, the answers to coming attempts, the engine's time, the free values' counter, the host's observations and the
record of failures) stays. -/
def State.resetBlock (s : State) : State :=
  { State.reset with
    platform := s.platform
    script := s.script
    answers := if s.requestInFlight then s.answers.tail else s.answers
    dropped := if s.requestInFlight && s.answers.isEmpty then s.dropped + 1 else s.dropped
    slice := s.slice
    freeCount := s.freeCount
    observed := s.observed
    failed := s.failed }

/-- The word a legal read returned, laid on the byte lanes (20_memory.md R57), joins what the host has observed. -/
def State.observe (r : Reg) (v : Word) (s : State) : State :=
  { s with observed := s.observed ++ [⟨r, bytesOfWord v⟩] }

/-- The head of OQ leaves (10_state.md R37). -/
def State.popped (s : State) : State := { s with oq := s.oq.tail }

end Sys2Proof.Machine
end

