-- ==== Sys2Proof/Machine/Operands.lean ====
section
/-! DEFINITION. The operands of the commands (30_encoding.md R71) and the values each command computes from them once:
counting primitives (00_scope.md R12), RANGE and MASK (42_sampling.md R131), `bias_check` (R140, R146), OFFSET and SPAN
(R141). -/

namespace Sys2Proof.Machine

/-- CONSTRUCT's `seed` is L_A. -/
def State.opSeed (s : State) : Word := s.lA

/-- `count` of NEXT, RAND, BIAS and UNID is L_N, the whole register. -/
def State.opCount (s : State) : Nat := s.lN.toNat

/-- RAND's `min` is L_A. -/
def State.opMin (s : State) : Word := s.lA

/-- RAND's `max` is L_B. -/
def State.opMax (s : State) : Word := s.lB

/-- BIAS's `numerator` is L_A. -/
def State.opNumerator (s : State) : Word := s.lA

/-- BIAS's `exponent` is L_B, all 64 bits of it. -/
def State.opExponent (s : State) : Word := s.lB

/-- `clz64`: the number of zero bits above the highest one bit; 64 for 0. -/
def clz64 (v : Word) : Nat := ((List.range 64).takeWhile fun i => !v.getLsbD (63 - i)).length

/-- `ctz64`: the number of zero bits below the lowest one bit. The spec never evaluates it at 0. -/
def ctz64 (v : Word) : Nat := ((List.range 64).takeWhile fun i => !v.getLsbD i).length

/-- `bitlen(v) = 64 - clz64(v)`. -/
def bitlen (v : Word) : Nat := 64 - clz64 v

/-- `ones(k) = 2^k - 1`, defined without a shift. -/
def ones (k : Nat) : Word := BitVec.ofNat 64 (2 ^ k - 1)

/-- RANGE (R131). -/
def randRange (min max : Word) : Word := max - min

/-- MASK (R131): all-ones of the bit length of RANGE; 0 for RANGE = 0 (R138). -/
def randMask (range : Word) : Word := ones (bitlen range)

/-- `bias_check` passes (R140, with the numerator's upper bound of R146). -/
def biasCheck (numerator exponent : Word) : Bool :=
  if numerator = 0 then false
  else if exponent < 1 ∨ exponent > 64 then false
  else if exponent < 64 ∧ numerator.toNat ≥ 2 ^ exponent.toNat then false
  else true

/-- OFFSET (R141). -/
def biasOffset (numerator : Word) : Nat := ctz64 numerator

/-- SPAN (R141). -/
def biasSpan (numerator exponent : Word) : Nat := exponent.toNat - biasOffset numerator

end Sys2Proof.Machine
end

