-- ==== Sys2Proof/Machine/Flags.lean ====
section
/-! DEFINITION. The block has no arithmetic flags (10_state.md R29): no command computes or reads one. What the host
reads as status bits are views of other state, assembled here into the STATUS word (R35), with the numbers of the result
codes (60_exceptions.md R180). -/

namespace Sys2Proof.Machine

/-- The number of a result code (R180), as the 4-bit register CODE holds it. -/
def codeBits : ResultCode → BitVec 4
  | .success => 0
  | .allocationFailure => 1
  | .hardwareEntropyExhausted => 2
  | .argumentOutOfBounds => 3
  | .invalidInstance => 4
  | .illegalCommand => 5

/-- BUSY: 1 iff PHASE = RUN. -/
def State.busy (s : State) : Bool := decide (s.phase = .run)

/-- OAVAIL: 1 iff OQ is not empty. -/
def State.oavail (s : State) : Bool := !s.oq.isEmpty

/-- The KIND field of STATUS: the KIND register when VALID = 1, else 0. -/
def State.kindView (s : State) : BitVec 8 := if s.valid then kindBits s.kind else 0

/-- STATUS (R35): CODE from bit 0, BUSY at bit 8, VALID at bit 9, OAVAIL at bit 10, KIND from bit 16; every other bit
is reserved and reads 0. -/
def statusWord (s : State) : Word :=
  (codeBits s.code).setWidth 64 |||
    (BitVec.ofBool s.busy).setWidth 64 <<< 8 |||
    (BitVec.ofBool s.valid).setWidth 64 <<< 9 |||
    (BitVec.ofBool s.oavail).setWidth 64 <<< 10 |||
    s.kindView.setWidth 64 <<< 16

end Sys2Proof.Machine
end

