-- ==== Sys2Proof/Machine/Engine.lean ====
section
/-! DEFINITION. The loop that the four sampling commands share: `for j in 0 .. count-1: emit(<one element>)`, where an
element is made from one or more draws. It is run in micro-operations (a draw, an emit, the completion), so that the
engine can wait inside `emit` while OQ is full (10_state.md R36) and can be interrupted by the host's reads or by RESET
at any of them; log 5. -/

namespace Sys2Proof.Machine

/-- What a command makes of one draw: its element is finished, or it goes on with these working values. -/
inductive Piece where
  | word (v : Word)
  | more (k : Nat) (acc : Word)
deriving DecidableEq, Repr

/-- The engine waits inside `emit`: a word is due and OQ is full (R36). -/
def State.stalled (s : State) : Bool := s.work.pending.isSome && !s.hasRoom

/-- One micro-operation of a sampling command whose use of a draw is `piece k acc d`: append the word that is due, or
draw for the next element, or complete when `count` elements are out. -/
def sampleTick (piece : Nat → Word → Word → Piece) (s : State) : State :=
  match s.work.pending with
  | some v => if s.hasRoom then s.emit v else s
  | none =>
    if s.work.j < s.opCount then
      match piece s.work.k s.work.acc s.drawWord with
      | .word v => s.drawn.due v
      | .more k acc => s.drawn.carry k acc
    else s.succeed

/-- At most `n` micro-operations; the engine stops early when the command has completed or waits in `emit`. -/
def sampleRun (piece : Nat → Word → Word → Piece) : Nat → State → State
  | 0, s => s
  | n + 1, s =>
    if s.phase = .run ∧ s.stalled = false then sampleRun piece n (sampleTick piece s) else s

end Sys2Proof.Machine
end

