-- ==== Sys2Proof/Machine/Lifecycle.lean ====
section
/-! DEFINITION. The lifecycle commands CONSTRUCT and DESTROY (43_lifecycle.md) with the seeding procedures
(41_generator_core.md R113, R114, R118, R119). -/

namespace Sys2Proof.Machine

/-- The acquisition under way goes on with the source's answers (40_units_mixer_entropy.md R94): an exhausted one raises,
an unanswered one leaves the command running with its request in flight (70_reset_and_hazards.md R219), an accepted value
goes to `done`. The attempt counter restarts when an acquisition ends. -/
def withAcquired (zg : Bool) (done : Word → State → State) (s : State) : State :=
  match acquire zg (retryLimit - s.work.attempts) s.answers with
  | (.value v, rest) => done v (s.arbiter rest 0 false)
  | (.exhausted, rest) => (s.arbiter rest 0 false).raise .hardwareEntropyExhausted
  | (.waiting used, rest) => s.arbiter rest used true

/-- `pcg_seed_det` (R113): the first mixer call gives S, the second INC. -/
def pcgSeedDet (s : State) : State :=
  let (t, first) := mixRef s.opSeed
  let (_, second) := mixRef t
  (s.installPcg first second).succeed

/-- The second acquisition of `pcg_seed_hw` (R114), the first having given `first`. -/
def pcgSeedSecond (first : Word) (s : State) : State :=
  withAcquired false (fun v s' => (s'.installPcg first v).succeed) s

/-- `pcg_seed_hw` (R114): two acquisitions in sequence, each with its own ten attempts; no zero guard. -/
def pcgSeedHw (s : State) : State :=
  match s.work.first with
  | some first => pcgSeedSecond first s
  | none => withAcquired false (fun v s' => pcgSeedSecond v (s'.keepFirst v)) s

/-- `xs_seed_det` (R118). -/
def xsSeedDet (s : State) : State := (s.installXs (mixRef s.opSeed).2).succeed

/-- `xs_seed_hw` (R119): one acquisition, with the zero guard. -/
def xsSeedHw (s : State) : State := withAcquired true (fun v s' => (s'.installXs v).succeed) s

/-- CONSTRUCT (R160). -/
def execConstruct (kind : BitVec 8) (s : State) : Host.Outcome State Fault Refusal :=
  if s.valid then .next (s.raise .invalidInstance)
  else
    match kindOfBits kind with
    | none => .next (s.raise .argumentOutOfBounds)
    | some .pcg64 => .next (if s.opSeed ≠ 0 then pcgSeedDet s else pcgSeedHw s)
    | some .xs64 => .next (if s.opSeed ≠ 0 then xsSeedDet s else xsSeedHw s)

/-- DESTROY (R163). -/
def execDestroy (s : State) : Host.Outcome State Fault Refusal :=
  if s.valid then .next s.discard.succeed else .next (s.raise .invalidInstance)

end Sys2Proof.Machine
end

