-- ==== Sys2Proof/Machine/Sampling.lean ====
section
/-! DEFINITION. RAND, the bounded-integer rejection sampler, and BIAS, the biased-bit-vector constructor
(42_sampling.md). -/

namespace Sys2Proof.Machine

/-- What one masked draw gives (R132): accepted, `m + min`; rejected, nothing. -/
def randAccept (min range : Word) (d : Word) : Option Word :=
  let m := d &&& randMask range
  if m ≤ range then some (m + min) else none

/-- `rand_one` one draw at a time (R132): a rejected draw is discarded and the loop goes on. -/
def randPiece (min range : Word) (k : Nat) (acc d : Word) : Piece :=
  match randAccept min range d with
  | some v => .word v
  | none => .more k acc

/-- RAND (R133, R137). -/
def execRand (s : State) : Host.Outcome State Fault Refusal :=
  if s.valid then
    if s.opMax < s.opMin then .next (s.raise .argumentOutOfBounds)
    else .next (sampleRun (randPiece s.opMin (randRange s.opMin s.opMax)) s.slice s)
  else .next (s.raise .invalidInstance)

/-- One step of `bias_one` (R142): OR where the numerator's bit is 1, AND where it is 0. -/
def biasStep (bit : Bool) (acc d : Word) : Word := if bit then acc ||| d else acc &&& d

/-- `bias_one` on the draws it is given, from bit index `k` and accumulator `acc` on (R142). -/
def biasFold (numerator : Word) : (k : Nat) → (acc : Word) → List Word → Word
  | _, acc, [] => acc
  | k, acc, d :: ds => biasFold numerator (k + 1) (biasStep (numerator.getLsbD (biasOffset numerator + k)) acc d) ds

/-- `bias_one` one draw at a time (R142): the element is finished after SPAN draws. -/
def biasPiece (numerator exponent : Word) (k : Nat) (acc d : Word) : Piece :=
  let acc' := biasStep (numerator.getLsbD (biasOffset numerator + k)) acc d
  if k + 1 < biasSpan numerator exponent then .more (k + 1) acc' else .word acc'

/-- BIAS (R143). -/
def execBias (s : State) : Host.Outcome State Fault Refusal :=
  if s.valid then
    if biasCheck s.opNumerator s.opExponent then
      .next (sampleRun (biasPiece s.opNumerator s.opExponent) s.slice s)
    else .next (s.raise .argumentOutOfBounds)
  else .next (s.raise .invalidInstance)

end Sys2Proof.Machine
end

