-- ==== Sys2Proof/Machine/Streams.lean ====
section
/-! DEFINITION. The two commands whose element is one raw draw: NEXT (41_generator_core.md R122) and UNID
(42_sampling.md R150). -/

namespace Sys2Proof.Machine

/-- An element that is the draw itself. -/
def rawPiece (_k : Nat) (_acc d : Word) : Piece := .word d

/-- NEXT (R122). -/
def execNext (s : State) : Host.Outcome State Fault Refusal :=
  if s.valid then .next (sampleRun rawPiece s.slice s) else .next (s.raise .invalidInstance)

/-- UNID (R150): the emitted word `w` is the fixed-point fraction `w / 2^64`, the raw word with the binary point left of
bit 63 (00_scope.md R4). -/
def execUnid (s : State) : Host.Outcome State Fault Refusal :=
  if s.valid then .next (sampleRun rawPiece s.slice s) else .next (s.raise .invalidInstance)

/-- The real number an emitted UNID word stands for (R150). -/
def unidValue (w : Word) : Rat := (w.toNat : Rat) / 2 ^ 64

end Sys2Proof.Machine
end

