-- ==== Sys2Proof/Machine/Dispatch.lean ====
section
/-! DEFINITION. The dispatch of a decoded command to its meaning (30_encoding.md R76, `Execute`), one arm per command. -/

namespace Sys2Proof.Machine

def exec (i : Instr) (s : State) : Host.Outcome State Fault Refusal :=
  match i with
  | .construct kind => Sys2Proof.Machine.execConstruct kind s
  | .destroy => Sys2Proof.Machine.execDestroy s
  | .next => Sys2Proof.Machine.execNext s
  | .rand => Sys2Proof.Machine.execRand s
  | .bias => Sys2Proof.Machine.execBias s
  | .unid => Sys2Proof.Machine.execUnid s

end Sys2Proof.Machine
end

