-- ==== Sys2Proof/Machine/Bus.lean ====
section
/-! DEFINITION. The register window and the host's accesses to it (20_memory.md R50 to R58, 10_state.md R30 to R38), and
the expansion of assembler lines into accesses (30_encoding.md R79). -/

namespace Sys2Proof.Machine

/-- The word index of a register (10_state.md R30). -/
def regIndex : Reg → Nat
  | .cmd => 0
  | .arg0 => 1
  | .arg1 => 2
  | .count => 3
  | .status => 4
  | .dout => 5

/-- The register at a word index; indices 6 and 7 are reserved (R38). -/
def regAtIndex : Nat → Option Reg
  | 0 => some .cmd
  | 1 => some .arg0
  | 2 => some .arg1
  | 3 => some .count
  | 4 => some .status
  | 5 => some .dout
  | _ => none

/-- The byte address of a register (R30). -/
def regAddr (base : Nat) (r : Reg) : Nat := base + 8 * regIndex r

/-- The address lies in the window (R50). -/
def inWindow (base addr : Nat) : Bool := decide (base ≤ addr) && decide (addr < base + 64)

/-- The register an access of `width` bytes at `addr` selects: 8 bytes wide, aligned, slots 0 to 5 (R53). -/
def regAt (base addr width : Nat) : Option Reg :=
  if inWindow base addr ∧ width = 8 ∧ (addr - base) % 8 = 0 then regAtIndex ((addr - base) / 8) else none

/-- `MemRead` at a register (R55): the word and the state after; `none` is the bus-error response (R31, R37). -/
def readReg (r : Reg) (s : State) : Option (Word × State) :=
  match r with
  | .cmd => none
  | .arg0 => some (s.arg0, s)
  | .arg1 => some (s.arg1, s)
  | .count => some (s.count, s)
  | .status => some (statusWord s, s)
  | .dout =>
    match s.oq with
    | [] => none
    | w :: _ => some (w, s.popped)

/-- `MemRead(addr, n)` (R54, R55): the word and the state after; `none` is the bus-error response. -/
def memRead (addr width : Nat) (s : State) : Option (Word × State) :=
  match regAt s.platform.base addr width with
  | some r => readReg r s
  | none => none

/-- The registers the host may write (R53). -/
def writable : Reg → Bool
  | .cmd | .arg0 | .arg1 | .count => true
  | .status | .dout => false

/-- `MemWrite` at a register (R56): a write of CMD starts a command. Writes of STATUS and DOUT never come here. -/
def writeReg (r : Reg) (v : Word) (s : State) : State :=
  match r with
  | .cmd => s.accept v
  | .arg0 => { s with arg0 := v }
  | .arg1 => { s with arg1 := v }
  | .count => { s with count := v }
  | .status => s
  | .dout => s

/-- The register a write of `width` bytes at `addr` goes to; `none` is the bus-error response (R53, R54). -/
def writeTarget (base addr width : Nat) : Option Reg :=
  match regAt base addr width with
  | some r => if writable r then some r else none
  | none => none

/-- A host read: legal, it is observed; illegal, the run faults (R54). Reads are allowed in either PHASE (R214). -/
def hostRead (addr width : Nat) (s : State) : Host.Outcome State Fault Refusal :=
  match regAt s.platform.base addr width with
  | some r =>
    match memRead addr width s with
    | some (v, s') => .next (s'.observe r v)
    | none => .fault (.busError addr)
  | none => if inWindow s.platform.base addr then .fault (.busError addr) else .fault (.outsideWindow addr)

/-- A host write of the given bytes: illegal, the run faults (R54); legal while BUSY, refused (R214); else R56. -/
def hostWrite (addr : Nat) (bytes : List Byte) (s : State) : Host.Outcome State Fault Refusal :=
  match writeTarget s.platform.base addr bytes.length with
  | some r =>
    match s.phase with
    | .run => .refused (.writeWhileBusy r)
    | .idle => .next (writeReg r (wordOfBytes bytes) s)
  | none => if inWindow s.platform.base addr then .fault (.busError addr) else .fault (.outsideWindow addr)

/-- The byte that a read had on the bus at a byte address, if that address is one of its register's (R57). -/
def laneByte (base : Nat) (o : Observation) (addr : Nat) : Option Byte :=
  if regAddr base o.reg ≤ addr then o.bytes[addr - regAddr base o.reg]? else none

/-- `W reg, v` (R79). -/
def writeEvent (base : Nat) (r : Reg) (v : Word) : Event := .write (regAddr base r) (bytesOfWord v)

/-- `R reg` (R79). -/
def readEvent (base : Nat) (r : Reg) : Event := .read (regAddr base r) 8

/-- POP (R79). -/
def popEvent (base : Nat) : Event := readEvent base .dout

/-- The command of an assembler line (R79). -/
def lineInstr : Line → Instr
  | .construct kind _ => .construct (BitVec.ofNat 8 kind)
  | .destroy => .destroy
  | .next _ => .next
  | .rand _ _ _ => .rand
  | .bias _ _ _ => .bias
  | .unid _ => .unid

/-- The operand writes of an assembler line (R79). -/
def lineOperands : Line → List (Reg × Nat)
  | .construct _ seed => [(.arg0, seed)]
  | .destroy => []
  | .next count => [(.count, count)]
  | .rand count min max => [(.arg0, min), (.arg1, max), (.count, count)]
  | .bias count numerator exponent => [(.arg0, numerator), (.arg1, exponent), (.count, count)]
  | .unid count => [(.count, count)]

/-- The expansion of an assembler line (R79): operand writes, the CMD write, and a WAIT that reads DOUT meanwhile or
not. -/
def expandLine (popping : Bool) (base : Nat) (l : Line) : List Event :=
  (lineOperands l).map (fun p => writeEvent base p.1 (BitVec.ofNat 64 p.2)) ++
    [writeEvent base .cmd (encode (lineInstr l)), .wait popping]

/-- How many words a line's command emits when it succeeds (70_reset_and_hazards.md R216). -/
def lineWords : Line → Nat
  | .construct _ _ => 0
  | .destroy => 0
  | .next count => count
  | .rand count _ _ => count
  | .bias count _ _ => count
  | .unid count => count

/-- Whether a line's WAIT must also read DOUT: OUT_DEPTH is finite and smaller than the number of words the command emits
(R79). -/
def waitMustPop (p : Platform) (l : Line) : Bool :=
  match p.outDepth with
  | none => false
  | some d => decide (d < lineWords l)

/-- A line as the host of this platform issues it (R79). -/
def assembleLine (p : Platform) (l : Line) : List Event := expandLine (waitMustPop p l) p.base l

end Sys2Proof.Machine
end

