-- ==== Sys2Proof/Machine/World.lean ====
section
/-! DEFINITION. Who moves next and what the move is: the engine, the host, the entropy source, or RESET (log 3). The
meaning of a decoded command is passed in, so that this file stands before the dispatch. -/

namespace Sys2Proof.Machine

/-- The engine's move: at rest while IDLE (60_exceptions.md R192); while RUN it decodes L_CMD and runs `Execute`
(30_encoding.md R76), an illegal word completing with ILLEGAL_COMMAND (R74). -/
def engineMove (run : Instr → State → Host.Outcome State Fault Refusal) (s : State) :
    Host.Outcome State Fault Refusal :=
  match s.phase with
  | .idle => .next s
  | .run =>
    match decode s.lCmd with
    | .error _ => .next (s.raise .illegalCommand)
    | .ok i => run i s

/-- The host's WAIT (R79): the last STATUS read, which finds BUSY = 0, ends it; `rest` is what the host does next. While
BUSY, a popping host reads a word from DOUT if there is one, and else the engine goes on. -/
def waitMove (run : Instr → State → Host.Outcome State Fault Refusal) (popping : Bool) (rest : List Event) (s : State) :
    Host.Outcome State Fault Refusal :=
  match s.phase with
  | .idle => .next (State.observe .status (statusWord s) { s with script := rest })
  | .run =>
    if popping && s.oavail then hostRead (regAddr s.platform.base .dout) 8 s else engineMove run s

/-- One step: the next event of the script, or, with none left, the engine. Nothing here makes the engine move in the
end: with a slice of 0 it makes no micro-operation, step after step. DESIGN CHOICE, log 17: the spec's fairness
(92_eei_decisions.md D37) is the script's, not the machine's. -/
def stepWith (run : Instr → State → Host.Outcome State Fault Refusal) (s : State) : Host.Outcome State Fault Refusal :=
  match s.script with
  | [] => engineMove run s
  | .read addr width :: rest => hostRead addr width { s with script := rest }
  | .write addr bytes :: rest => hostWrite addr bytes { s with script := rest }
  | .wait popping :: rest => waitMove run popping rest s
  | .engine n :: rest => engineMove run { s with script := rest, slice := n }
  | .entropy a :: rest => .next (State.answered a { s with script := rest })
  | .noAnswer :: rest => .next (State.unanswered { s with script := rest })
  | .reset :: rest => .next (State.resetBlock { s with script := rest })

end Sys2Proof.Machine
end

