-- ==== Sys2Proof/Machine/Step.lean ====
section
/-! DEFINITION. One step of the machine, and how a command word is placed for the very next step (log 8). -/

namespace Sys2Proof.Machine

/-- One step of the machine. -/
def step (s : State) : Host.Outcome State Fault Refusal := stepWith exec s

/-- The state in which the word has just been written to CMD and accepted (30_encoding.md R76) and the engine moves
next, with the time it had. -/
def State.withFetchWord (s : State) (nbits w : Nat) : State :=
  let t := s.accept (BitVec.ofNat 64 (w % 2 ^ nbits))
  { t with script := .engine s.slice :: s.script }

end Sys2Proof.Machine
end

