-- ==== Sys2Proof/Safety.lean ====
section
/-! DEFINITION. The terms in which claims speak of a run: the state invariants of the spec, the end of a run, a run gone
wrong, and which states no host can tell apart. -/

namespace Sys2Proof.Machine

/-- The state invariants of 10_state.md R27: a PCG64 instance's increment is odd, an XS64 instance's state is not zero. -/
def InstanceInv (s : State) : Prop :=
  s.valid = true →
    (s.kind = .pcg64 → s.regInc.getLsbD 0 = true) ∧ (s.kind = .xs64 → s.regS ≠ 0)

/-- CODE and the record of failures never hold ALLOCATION_FAILURE (60_exceptions.md R182), and the record holds
failures only (R185). -/
def CodeInv (s : State) : Prop :=
  s.code ≠ .allocationFailure ∧ ∀ c ∈ s.failed, c ≠ .allocationFailure ∧ c ≠ .success

/-- OQ holds at most OUT_DEPTH words (10_state.md R36). -/
def QueueInv (s : State) : Prop :=
  ∀ d, s.platform.outDepth = some d → s.oq.length ≤ d

/-- Every word already in OQ will still fit when `n` more are emitted (10_state.md R36). -/
def State.roomFor (n : Nat) (s : State) : Prop :=
  ∀ d, s.platform.outDepth = some d → s.oq.length + n ≤ d

/-- A run has ended: the script is exhausted and PHASE = IDLE (70_reset_and_hazards.md R223). -/
def State.runEnded (s : State) : Bool := s.script.isEmpty && decide (s.phase = .idle)

/-- Some command of the run completed with a non-zero code (60_exceptions.md R185). -/
def State.wentWrong (s : State) : Bool := !s.failed.isEmpty

/-- Equal but for the registers that hold no value (10_state.md R25, items U5 and U6): S, INC and KIND while VALID = 0,
INC of an XS64 instance. -/
def SameButNoValue (s t : State) : Prop :=
  t = { s with regS := t.regS, regInc := t.regInc, kind := t.kind } ∧
    (s.valid = true → t.regS = s.regS ∧ t.kind = s.kind ∧ (s.kind = .pcg64 → t.regInc = s.regInc))

/-- Two outcomes no host can tell apart: next states that differ only in registers that hold no value, or the same
stop. -/
def SameOutcome : Host.Outcome State Fault Refusal → Host.Outcome State Fault Refusal → Prop
  | .next s, .next t => SameButNoValue s t
  | .fault a, .fault b => a = b
  | .refused a, .refused b => a = b
  | _, _ => False

/-- `n` steps, each with a next state, lead from the first state to the second. -/
def stepsTo : Nat → State → State → Prop
  | 0, s, t => s = t
  | n + 1, s, t => ∃ u, step s = .next u ∧ stepsTo n u t

/-- A read the spec calls legal (20_memory.md R53). -/
def LegalRead (s : State) (addr width : Nat) : Prop :=
  width = 8 ∧ ∃ r, r ≠ .cmd ∧ addr = s.platform.base + 8 * regIndex r ∧ (r = .dout → s.oq ≠ [])

/-- A write the spec calls legal (R53). -/
def LegalWrite (s : State) (addr width : Nat) : Prop :=
  width = 8 ∧ ∃ r, (r = .cmd ∨ r = .arg0 ∨ r = .arg1 ∨ r = .count) ∧ addr = s.platform.base + 8 * regIndex r

/-- What a register holds, for the three operand registers; the others hold nothing of their own. -/
def State.operand (r : Reg) (s : State) : Option Word :=
  match r with
  | .arg0 => some s.arg0
  | .arg1 => some s.arg1
  | .count => some s.count
  | .cmd | .status | .dout => none

/-- The latch of an operand register (10_state.md R41). -/
def State.latch (r : Reg) (s : State) : Option Word :=
  match r with
  | .arg0 => some s.lA
  | .arg1 => some s.lB
  | .count => some s.lN
  | .cmd | .status | .dout => none

/-- All sequences of `n` draws whose 64 lanes are alike: each draw all zeros or all ones, every one of the `2^n` sequences
once. In any one lane they are the `2^n` equally likely outcomes of `n` fair bits (42_sampling.md R144). -/
def laneDraws : Nat → List (List Word)
  | 0 => [[]]
  | n + 1 => (laneDraws n).flatMap fun ds => [0#64 :: ds, BitVec.allOnes 64 :: ds]

/-- The elements BIAS makes from the stream: element `j` from draws `j * SPAN` to `j * SPAN + SPAN - 1` (R143). -/
def biasElements (kind : GenKind) (inc s numerator : Word) (span count : Nat) : List Word :=
  (List.range count).map fun j => biasFold numerator 0 0 (rawStream kind inc span (advanceN kind inc (j * span) s))

/-- The state a sampling command with `count` elements ends in (41_generator_core.md R122, 42_sampling.md R133, R143,
R150): S after its draws, its words at the tail of OQ, CODE = SUCCESS, PHASE = IDLE, and nothing else. -/
def State.sampled (s' : Word) (words : List Word) (s : State) : State :=
  { s with
    regS := s'
    oq := s.oq ++ words
    code := .success
    phase := .idle
    work := { Work.fresh with j := words.length } }

/-- A sampling command under back-pressure: in each round the engine, while RUN, makes at most `n` micro-operations, and
then the host pops at most `p` words from DOUT. The state after all rounds, and the words the host read after those in
`read` (10_state.md R36, 70_reset_and_hazards.md R218). -/
def popRounds (i : Instr) : List (Nat × Nat) → State → List Word → Option (State × List Word)
  | [], s, read => some (s, read)
  | (n, p) :: rounds, s, read =>
    match (if s.phase = .run then exec i { s with slice := n } else .next s) with
    | .next t => popRounds i rounds { t with oq := t.oq.drop p } (read ++ t.oq.take p)
    | .fault _ => none
    | .refused _ => none

/-- The same block with an unbounded queue and this slice. -/
def State.unbounded (slice : Nat) (s : State) : State :=
  { s with platform := { s.platform with outDepth := none }, slice := slice }

/-- The engine is at the start of the command it runs, on a constructed instance. -/
def State.startsSampling (s : State) : Prop := s.phase = .run ∧ s.valid = true ∧ s.work = Work.fresh

end Sys2Proof.Machine
end

