-- ==== Sys2Proof/Certificates/Slice0/Obligations.lean ====
section
/-! DEFINITION. The statements about the block, each with the rule of spec/ it formalises. Nothing is proved here. -/

open Sys2Proof Sys2Proof.Machine

/-! ### Encoding -/

/-- 30_encoding.md R77 (worked examples) and R70: command words written out from the encoding decode to their command. -/
def Obligations.WrittenOutWordsDecode : Prop :=
  decode 0x0000000000000101#64 = .ok (.construct 1) ∧
  decode 0x000000000000FF01#64 = .ok (.construct 255) ∧
  decode 0x0000000000000002#64 = .ok .destroy ∧
  decode 0x0000000000000010#64 = .ok .next ∧
  decode 0x0000000000000011#64 = .ok .rand ∧
  decode 0x0000000000000012#64 = .ok .bias ∧
  decode 0x0000000000000013#64 = .ok .unid ∧
  decode 0x0000000000000111#64 = .error .kindNotZero ∧
  decode 0x0000000000010010#64 = .error .reservedBits ∧
  decode 0x0000000000000000#64 = .error .unknownOpcode

/-- Every command's word decodes to that command, with the KIND field at every value. -/
def Obligations.DecodeInvertsEncode : Prop := ∀ i : Instr, decode (encode i) = .ok i

/-- A word that decodes is the one word of its command: no bit of it is dropped. -/
def Obligations.EncodeInvertsDecode : Prop := ∀ (w : Word) (i : Instr), decode w = .ok i → encode i = w

/-- 30_encoding.md R72: a word selects a row when `w & mask == match`, a word selects at most one row (`decode` has one
value), and a word that matches none is illegal. -/
def Obligations.DecodeSelectsTableRow : Prop :=
  ∀ w : Word,
    (∀ k, decode w = .ok (.construct k) ↔
      w &&& 0xFFFFFFFFFFFF00FF#64 = 0x0000000000000001#64 ∧ k = w.extractLsb' 8 8) ∧
    (decode w = .ok .destroy ↔ w &&& 0xFFFFFFFFFFFFFFFF#64 = 0x0000000000000002#64) ∧
    (decode w = .ok .next ↔ w &&& 0xFFFFFFFFFFFFFFFF#64 = 0x0000000000000010#64) ∧
    (decode w = .ok .rand ↔ w &&& 0xFFFFFFFFFFFFFFFF#64 = 0x0000000000000011#64) ∧
    (decode w = .ok .bias ↔ w &&& 0xFFFFFFFFFFFFFFFF#64 = 0x0000000000000012#64) ∧
    (decode w = .ok .unid ↔ w &&& 0xFFFFFFFFFFFFFFFF#64 = 0x0000000000000013#64) ∧
    ((∃ e, decode w = .error e) ↔
      w &&& 0xFFFFFFFFFFFF00FF#64 ≠ 0x0000000000000001#64 ∧
        w &&& 0xFFFFFFFFFFFFFFFF#64 ∉ [0x02#64, 0x10#64, 0x11#64, 0x12#64, 0x13#64])

/-- 30_encoding.md R74: which words are illegal, and that an illegal word completes with ILLEGAL_COMMAND and changes
nothing else, whatever VALID is (the model's record of failures, the script and the engine's slice apart). That a step in a
WAIT adds no STATUS read to what the host has observed (the clause about WAIT) is the model's choice, log 14. -/
def Obligations.IllegalWordsCompleteWithIllegalCommand : Prop :=
  (∀ w : Word, (∃ e, decode w = .error e) ↔
    w.extractLsb' 16 48 ≠ 0 ∨
    w.extractLsb' 0 8 ∉ [0x01#8, 0x02#8, 0x10#8, 0x11#8, 0x12#8, 0x13#8] ∨
    (w.extractLsb' 0 8 ∈ [0x02#8, 0x10#8, 0x11#8, 0x12#8, 0x13#8] ∧ w.extractLsb' 8 8 ≠ 0)) ∧
  ∀ (s : State) (e : IllegalWord), s.phase = .run → decode s.lCmd = .error e →
    let completed := { s with code := .illegalCommand, phase := .idle, failed := s.failed ++ [.illegalCommand] }
    (s.script = [] → step s = .next completed) ∧
    (∀ popping rest, s.script = .wait popping :: rest → (popping && s.oavail) = false → step s = .next completed) ∧
    (∀ n rest, s.script = .engine n :: rest → step s = .next { completed with script := rest, slice := n })

/-- 20_memory.md R57: byte `k` of a word on the bus carries bits `[8k+7 : 8k]`, and the eight bytes make the word. So it
is with the data of a legal read of each register, whose byte at `BASE + 8*i + k` carries those bits of slot `i` and which
has a byte at no other address, and with the data of a legal write. -/
def Obligations.ByteLanesAreLittleEndian : Prop :=
  (∀ v : Word, wordOfBytes (bytesOfWord v) = v ∧ (bytesOfWord v).length = 8 ∧
    ∀ k, k < 8 → (bytesOfWord v)[k]? = some (v.extractLsb' (8 * k) 8)) ∧
  (∀ (s : State) (r : Reg) (v : Word) (rest : List Event),
    (r = .arg0 ∧ v = s.arg0) ∨ (r = .arg1 ∧ v = s.arg1) ∨ (r = .count ∧ v = s.count) ∨
      (r = .status ∧ v = statusWord s) ∨ (r = .dout ∧ s.oq.head? = some v) →
    s.script = .read (s.platform.base + 8 * regIndex r) 8 :: rest →
    ∃ t o, step s = .next t ∧ t.observed = s.observed ++ [o] ∧
      (∀ k, k < 8 → laneByte s.platform.base o (s.platform.base + 8 * regIndex r + k) = some (v.extractLsb' (8 * k) 8)) ∧
      ∀ addr, addr < s.platform.base + 8 * regIndex r ∨ s.platform.base + 8 * regIndex r + 8 ≤ addr →
        laneByte s.platform.base o addr = none) ∧
  ∀ (s : State) (r : Reg) (bytes : List Byte) (rest : List Event),
    r = .cmd ∨ r = .arg0 ∨ r = .arg1 ∨ r = .count → s.phase = .idle → bytes.length = 8 →
    s.script = .write (s.platform.base + 8 * regIndex r) bytes :: rest →
    ∃ t v, step s = .next t ∧ (if r = .cmd then t.lCmd = v else t.operand r = some v) ∧
      ∀ k, k < 8 → bytes[k]? = some (v.extractLsb' (8 * k) 8)

/-! ### The step -/

/-- 30_encoding.md R76: while RUN, the engine's step is the meaning of the command L_CMD decodes to. (That a step in a
WAIT adds no STATUS read to what the host has observed is the model's choice, log 14.) -/
def Obligations.StepRunsDecodedCommand : Prop :=
  ∀ (s : State) (i : Instr), s.phase = .run → decode s.lCmd = .ok i →
    (s.script = [] → step s = exec i s) ∧
    (∀ n rest, s.script = .engine n :: rest → step s = exec i { s with script := rest, slice := n }) ∧
    (∀ popping rest, s.script = .wait popping :: rest → (popping && s.oavail) = false → step s = exec i s)

/-- 30_encoding.md R76, 10_state.md R41: an accepted CMD write latches the word and the three operand registers and
sets PHASE to RUN, and does nothing else. -/
def Obligations.AcceptedCmdWriteLatchesOperands : Prop :=
  ∀ (s : State) (w : Word) (rest : List Event), s.phase = .idle → s.script = writeEvent s.platform.base .cmd w :: rest →
    step s = .next { s with
      script := rest, lCmd := w, lA := s.arg0, lB := s.arg1, lN := s.count, phase := .run, work := Work.fresh }

/-- 30_encoding.md R79: an assembler line's expansion, whether its WAIT pops or not, brings the block after one step for
each write to RUN with the line's command word latched, each operand in the register and the latch that the table gives
it, the other operand registers as they were, and WAIT next; and WAIT must pop exactly when OUT_DEPTH is finite and
smaller than the number of words the command emits. -/
def Obligations.AssemblerLineStartsItsCommand : Prop :=
  (∀ (s : State) (l : Line) (popping : Bool) (rest : List Event), s.phase = .idle → l.wellFormed = true →
    s.script = expandLine popping s.platform.base l ++ rest →
    let started := fun (cmd a b n : Word) => { s with
      script := .wait popping :: rest, arg0 := a, arg1 := b, count := n,
      lCmd := cmd, lA := a, lB := b, lN := n, phase := .run, work := Work.fresh }
    match l with
    | .construct kind seed => ∃ w a : Word, w.toNat = 0x01 + kind * 2 ^ 8 ∧ a.toNat = seed ∧
        stepsTo 2 s (started w a s.arg1 s.count) ∧ decode w = .ok (.construct (BitVec.ofNat 8 kind))
    | .destroy => stepsTo 1 s (started 0x02#64 s.arg0 s.arg1 s.count)
    | .next count => ∃ n : Word, n.toNat = count ∧ stepsTo 2 s (started 0x10#64 s.arg0 s.arg1 n)
    | .rand count min max => ∃ n a b : Word, n.toNat = count ∧ a.toNat = min ∧ b.toNat = max ∧
        stepsTo 4 s (started 0x11#64 a b n)
    | .bias count numerator exponent => ∃ n a b : Word,
        n.toNat = count ∧ a.toNat = numerator ∧ b.toNat = exponent ∧ stepsTo 4 s (started 0x12#64 a b n)
    | .unid count => ∃ n : Word, n.toNat = count ∧ stepsTo 2 s (started 0x13#64 s.arg0 s.arg1 n)) ∧
  ∀ (p : Platform) (l : Line),
    assembleLine p l = expandLine (waitMustPop p l) p.base l ∧
    (waitMustPop p l = true ↔ ∃ d, p.outDepth = some d ∧
      match l with
      | .construct _ _ | .destroy => False
      | .next count | .rand count _ _ | .bias count _ _ | .unid count => d < count)

/-- 10_state.md R41, 20_memory.md R61: a command reads only the latched operands; what the operand registers hold
makes no difference and is not changed. -/
def Obligations.CommandsReadOnlyLatches : Prop :=
  ∀ (i : Instr) (s t : State) (x y z : Word), exec i s = .next t →
    exec i { s with arg0 := x, arg1 := y, count := z } = .next { t with arg0 := x, arg1 := y, count := z }

/-- 30_encoding.md R71: the operands a command's row calls ignored make no difference. -/
def Obligations.IgnoredOperandsHaveNoEffect : Prop :=
  ∀ (s t : State) (x y z : Word),
    (∀ k, exec (.construct k) s = .next t →
      exec (.construct k) { s with lB := y, lN := z } = .next { t with lB := y, lN := z }) ∧
    (exec .destroy s = .next t →
      exec .destroy { s with lA := x, lB := y, lN := z } = .next { t with lA := x, lB := y, lN := z }) ∧
    (exec .next s = .next t → exec .next { s with lA := x, lB := y } = .next { t with lA := x, lB := y }) ∧
    (exec .unid s = .next t → exec .unid { s with lA := x, lB := y } = .next { t with lA := x, lB := y })

/-- The frame of every command: the operand registers and latches, the platform, the script, the engine's slice and the
host's observations are unchanged (10_state.md R32 to R34, "No command writes it"), and so is every other field that no
command but the one named writes. -/
def Obligations.CommandFrame : Prop :=
  ∀ (i : Instr) (s t : State), exec i s = .next t →
    (t.arg0 = s.arg0 ∧ t.arg1 = s.arg1 ∧ t.count = s.count ∧
      t.lCmd = s.lCmd ∧ t.lA = s.lA ∧ t.lB = s.lB ∧ t.lN = s.lN ∧
      t.platform = s.platform ∧ t.script = s.script ∧ t.slice = s.slice ∧ t.observed = s.observed ∧
      t.dropped = s.dropped) ∧
    (i ≠ .destroy → t.freeCount = s.freeCount) ∧
    ((∀ k, i ≠ .construct k) → t.answers = s.answers) ∧
    ((∀ k, i ≠ .construct k) → i ≠ .destroy → t.regInc = s.regInc ∧ t.kind = s.kind ∧ t.valid = s.valid) ∧
    (i = .destroy ∨ (∃ k, i = .construct k) → t.oq = s.oq)

/-! ### Registers and the bus -/

/-- 10_state.md R44: the state after reset, for every element to which the table gives a value. -/
def Obligations.ResetStateIsAsListed : Prop :=
  State.reset.valid = false ∧ State.reset.phase = .idle ∧ State.reset.code = .success ∧
  State.reset.arg0 = 0 ∧ State.reset.arg1 = 0 ∧ State.reset.count = 0 ∧ State.reset.oq = [] ∧
  statusWord State.reset = 0x0000000000000000#64

/-- 70_reset_and_hazards.md R210, R211, R212: RESET, at any moment, a running command included, takes the block to the
reset state, makes no entropy attempt, and is not reported as a failure. An entropy request in flight, the one of a
CONSTRUCT that waits, is dropped: its answer is lost if it has come, and ignored when it comes later; no other answer
is. (That answers come in the order of their requests is the model's choice, log 18.) -/
def Obligations.ResetAbandonsRunningCommand : Prop :=
  (∀ (s : State) (rest : List Event), s.script = .reset :: rest →
    ∃ t, step s = .next t ∧ t.script = rest ∧
      t.valid = false ∧ t.phase = .idle ∧ t.code = .success ∧ t.arg0 = 0 ∧ t.arg1 = 0 ∧ t.count = 0 ∧ t.oq = [] ∧
      statusWord t = 0 ∧ t.failed = s.failed ∧ t.observed = s.observed ∧ t.platform = s.platform ∧
      (¬ (s.phase = .run ∧ s.work.inFlight = true) → t.answers = s.answers ∧ t.dropped = s.dropped) ∧
      (s.phase = .run → s.work.inFlight = true →
        (∀ a as, s.answers = a :: as → t.answers = as ∧ t.dropped = s.dropped) ∧
        (s.answers = [] → t.answers = [] ∧ t.dropped = s.dropped + 1))) ∧
  (∀ (s : State) (a : Answer) (rest : List Event), s.script = .entropy a :: rest →
    (0 < s.dropped → step s = .next { s with script := rest, dropped := s.dropped - 1 }) ∧
    (s.dropped = 0 → step s = .next { s with script := rest, answers := s.answers ++ [a] })) ∧
  ∀ (k : BitVec 8) (s t : State), exec (.construct k) s = .next t → t.phase = .run → t.work.inFlight = true

/-- 10_state.md R35: the fields of STATUS, that a read of it has no side effect, that a write of it gets the bus-error
response, that CODE changes only when a command completes (or at reset), and that every completing command overwrites it,
a successful one with 0. -/
def Obligations.StatusShowsItsFields : Prop :=
  (∀ s : State,
    (statusWord s).extractLsb' 0 4 = codeBits s.code ∧ (statusWord s).extractLsb' 4 4 = 0 ∧
    ((statusWord s).getLsbD 8 = true ↔ s.phase = .run) ∧ (statusWord s).getLsbD 9 = s.valid ∧
    ((statusWord s).getLsbD 10 = true ↔ s.oq ≠ []) ∧ (statusWord s).extractLsb' 11 5 = 0 ∧
    (statusWord s).extractLsb' 16 8 = (if s.valid then kindBits s.kind else 0) ∧
    (statusWord s).extractLsb' 24 40 = 0) ∧
  (∀ (s : State) (rest : List Event), s.script = .read (s.platform.base + 0x20) 8 :: rest →
    step s = .next { s with script := rest, observed := s.observed ++ [⟨.status, bytesOfWord (statusWord s)⟩] }) ∧
  (∀ (s : State) (bytes : List Byte) (rest : List Event), s.script = .write (s.platform.base + 0x20) bytes :: rest →
    step s = .fault (.busError (s.platform.base + 0x20))) ∧
  (∀ s t : State, step s = .next t → t.code ≠ s.code →
    (s.phase = .run ∧ t.phase = .idle) ∨ ∃ rest, s.script = .reset :: rest) ∧
  (∀ s t : State, step s = .next t → s.phase = .run → t.phase = .idle → (∀ rest, s.script ≠ .reset :: rest) →
    (t.failed = s.failed ∧ codeBits t.code = 0) ∨ (t.failed = s.failed ++ [t.code] ∧ codeBits t.code ≠ 0))

/-- 10_state.md R32, R33, R34: an operand register takes any value and a read returns the last value written; the other
operand registers keep theirs. -/
def Obligations.OperandRegistersReadBack : Prop :=
  ∀ (s : State) (r : Reg) (v : Word) (rest : List Event), r = .arg0 ∨ r = .arg1 ∨ r = .count → s.phase = .idle →
    s.script = writeEvent s.platform.base r v :: readEvent s.platform.base r :: rest →
    ∃ t, step s = .next t ∧ t.operand r = some v ∧ (∀ r', r' ≠ r → t.operand r' = s.operand r') ∧
      t = { s with script := t.script, arg0 := t.arg0, arg1 := t.arg1, count := t.count } ∧
      step t = .next { t with script := rest, observed := s.observed ++ [⟨r, bytesOfWord v⟩] }

/-- 10_state.md R37: a read of DOUT returns the head of OQ and removes it, in either PHASE; with OQ empty, and for a
write, the bus-error response. -/
def Obligations.DoutPopsTheHead : Prop :=
  ∀ (s : State) (rest : List Event),
    (s.script = .read (s.platform.base + 0x28) 8 :: rest →
      (∀ w ws, s.oq = w :: ws →
        step s = .next { s with script := rest, oq := ws, observed := s.observed ++ [⟨.dout, bytesOfWord w⟩] }) ∧
      (s.oq = [] → step s = .fault (.busError (s.platform.base + 0x28)))) ∧
    (∀ bytes, s.script = .write (s.platform.base + 0x28) bytes :: rest →
      step s = .fault (.busError (s.platform.base + 0x28)))

/-- 20_memory.md R53: which accesses in the window are legal; every other one is answered with a bus error, which ends the
run (R54, R38). -/
def Obligations.OnlyLegalAccessesAreAnswered : Prop :=
  ∀ (s : State) (addr : Nat) (rest : List Event), s.platform.base ≤ addr → addr < s.platform.base + 64 →
    (∀ width, s.script = .read addr width :: rest →
      (LegalRead s addr width → ∃ t, step s = .next t) ∧
      (¬ LegalRead s addr width → step s = .fault (.busError addr))) ∧
    (∀ bytes, s.script = .write addr bytes :: rest →
      (LegalWrite s addr bytes.length → s.phase = .idle → ∃ t, step s = .next t) ∧
      (¬ LegalWrite s addr bytes.length → step s = .fault (.busError addr)))

/-- The model's choice (log 7): an access that starts outside the window ends the run under a name of its own. -/
def Obligations.AccessOutsideWindowStops : Prop :=
  ∀ (s : State) (addr : Nat) (rest : List Event), addr < s.platform.base ∨ s.platform.base + 64 ≤ addr →
    (∀ width, s.script = .read addr width :: rest → step s = .fault (.outsideWindow addr)) ∧
    (∀ bytes, s.script = .write addr bytes :: rest → step s = .fault (.outsideWindow addr))

/-- 70_reset_and_hazards.md R214: while BUSY a legal write is refused, and the reads of STATUS, DOUT, ARG0, ARG1 and
COUNT go on. In either PHASE a read returns the register's value and has no side effect, but that DOUT returns the head of
OQ and removes it (20_memory.md R55, 10_state.md R32 to R37). -/
def Obligations.BusyBlockRefusesWrites : Prop :=
  ∀ (s : State) (rest : List Event),
    (s.phase = .run → ∀ r v, r = .cmd ∨ r = .arg0 ∨ r = .arg1 ∨ r = .count →
      s.script = writeEvent s.platform.base r v :: rest → step s = .refused (.writeWhileBusy r)) ∧
    (s.script = readEvent s.platform.base .arg0 :: rest →
      step s = .next { s with script := rest, observed := s.observed ++ [⟨.arg0, bytesOfWord s.arg0⟩] }) ∧
    (s.script = readEvent s.platform.base .arg1 :: rest →
      step s = .next { s with script := rest, observed := s.observed ++ [⟨.arg1, bytesOfWord s.arg1⟩] }) ∧
    (s.script = readEvent s.platform.base .count :: rest →
      step s = .next { s with script := rest, observed := s.observed ++ [⟨.count, bytesOfWord s.count⟩] }) ∧
    (s.script = readEvent s.platform.base .status :: rest →
      step s = .next { s with script := rest, observed := s.observed ++ [⟨.status, bytesOfWord (statusWord s)⟩] }) ∧
    ∀ w ws, s.oq = w :: ws → s.script = readEvent s.platform.base .dout :: rest →
      step s = .next { s with script := rest, oq := ws, observed := s.observed ++ [⟨.dout, bytesOfWord w⟩] }

/-! ### Mixer, arbiter and engines -/

/-- 40_units_mixer_entropy.md R90 and 41_generator_core.md R110, R111, R116: the four functions with the document's
constants written out. -/
def Obligations.UnitsComputeTheWrittenFormulas : Prop :=
  (∀ x : Word,
    let a := (x ^^^ (x >>> 30)) * 0xBF58476D1CE4E5B9#64
    let b := (a ^^^ (a >>> 27)) * 0x94D049BB133111EB#64
    mix64 x = b ^^^ (b >>> 31)) ∧
  (∀ s : Word,
    let permuted := ((s >>> ((s >>> 59).toNat + 5)) ^^^ s) * 0xAEF17502108EF2D9#64
    pcgOutput s = permuted ^^^ (permuted >>> 43)) ∧
  (∀ s inc : Word, pcgAdvance s inc = s * 0x5851F42D4C957F2D#64 + inc) ∧
  (∀ s : Word,
    let a := s ^^^ (s <<< 13)
    let b := a ^^^ (a >>> 7)
    xsAdvance s = b ^^^ (b <<< 17))

/-- 40_units_mixer_entropy.md R91: the mixer is a bijection and only zero maps to zero, so that no chain of mixer calls
on a non-zero seed reaches zero and distinct seeds never meet. -/
def Obligations.MixerIsBijectiveFixingZero : Prop :=
  Function.Bijective mix64 ∧ (∀ x : Word, mix64 x = 0 ↔ x = 0) ∧
    (∀ (n : Nat) (x : Word), x ≠ 0 → mix64^[n] x ≠ 0) ∧
    (∀ (n : Nat) (x y : Word), x ≠ y → mix64^[n] x ≠ mix64^[n] y)

/-- 41_generator_core.md R120: the xorshift advancement is a bijection and only zero maps to zero, so that no word of an
XS64 stream from a non-zero state is zero. -/
def Obligations.XorshiftIsBijectiveFixingZero : Prop :=
  Function.Bijective xsAdvance ∧ (∀ s : Word, xsAdvance s = 0 ↔ s = 0) ∧
    ∀ (n : Nat) (inc s : Word), s ≠ 0 → advanceN .xs64 inc n s ≠ 0 ∧ (0 : Word) ∉ rawStream .xs64 inc n s

/-- 40_units_mixer_entropy.md R94, R95, R96: an acquisition takes the first accepted answer of at most ten and asks for
none after it (R94); ten answers that are not accepted exhaust it; with the zero guard, a zero value is not accepted. That
it waits when its answers have run out before (last clause) is the model's choice, log 4, for what
70_reset_and_hazards.md R219 calls an attempt not answered yet. -/
def Obligations.AcquisitionTakesFirstAcceptedOfTen : Prop :=
  ∀ (zg : Bool) (pre : List Answer) (a : Answer) (post : List Answer),
    (∀ x ∈ pre, ¬ (x.ok = true ∧ ¬ (zg = true ∧ x.v = 0))) →
    (pre.length < 10 → a.ok = true → ¬ (zg = true ∧ a.v = 0) →
      acquire zg retryLimit (pre ++ a :: post) = (.value a.v, post)) ∧
    (pre.length = 10 → acquire zg retryLimit (pre ++ post) = (.exhausted, post)) ∧
    (pre.length < 10 → acquire zg retryLimit pre = (.waiting pre.length, []))

/-! ### CONSTRUCT and DESTROY -/

/-- 41_generator_core.md R113, R118 with 43_lifecycle.md R160: deterministic seeding. -/
def Obligations.ConstructFromNonzeroSeed : Prop :=
  ∀ s : State, s.valid = false → s.lA ≠ 0 →
    exec (.construct 0x00#8) s = .next { s with
      regS := mix64 s.lA, regInc := mix64 (mix64 s.lA) ||| 1, kind := .pcg64, valid := true,
      code := .success, phase := .idle } ∧
    exec (.construct 0x01#8) s = .next { s with
      regS := mix64 s.lA, kind := .xs64, valid := true, code := .success, phase := .idle } ∧
    mix64 s.lA ≠ 0

/-- 41_generator_core.md R114: hardware seeding of PCG64, from the start of the command: two acquisitions in sequence,
each with ten attempts, no zero guard, bit 0 of INC forced; an exhausted one fails the command, and if it is the first
the second is not started. -/
def Obligations.ConstructPcgFromEntropy : Prop :=
  ∀ (s : State) (pre₁ pre₂ post : List Answer) (a₁ a₂ : Answer),
    s.valid = false → s.lA = 0 → s.work = Work.fresh →
    (∀ x ∈ pre₁, x.ok = false) → (∀ x ∈ pre₂, x.ok = false) → a₁.ok = true → a₂.ok = true →
    (pre₁.length < 10 → pre₂.length < 10 → s.answers = pre₁ ++ a₁ :: (pre₂ ++ a₂ :: post) →
      ∃ w, exec (.construct 0x00#8) s = .next { s with
        regS := a₁.v, regInc := a₂.v ||| 1, kind := .pcg64, valid := true, answers := post,
        code := .success, phase := .idle, work := w }) ∧
    (pre₁.length = 10 → s.answers = pre₁ ++ post →
      ∃ w, exec (.construct 0x00#8) s = .next { s with
        answers := post, code := .hardwareEntropyExhausted, phase := .idle,
        failed := s.failed ++ [.hardwareEntropyExhausted], work := w }) ∧
    (pre₁.length < 10 → pre₂.length = 10 → s.answers = pre₁ ++ a₁ :: (pre₂ ++ post) →
      ∃ w, exec (.construct 0x00#8) s = .next { s with
        answers := post, code := .hardwareEntropyExhausted, phase := .idle,
        failed := s.failed ++ [.hardwareEntropyExhausted], work := w })

/-- 41_generator_core.md R119: hardware seeding of XS64, from the start of the command: one acquisition with the zero
guard, so that a zero answer costs an attempt; INC is not written. -/
def Obligations.ConstructXsFromEntropy : Prop :=
  ∀ (s : State) (pre post : List Answer) (a : Answer),
    s.valid = false → s.lA = 0 → s.work = Work.fresh →
    (∀ x ∈ pre, x.ok = false ∨ x.v = 0) → a.ok = true → a.v ≠ 0 →
    (pre.length < 10 → s.answers = pre ++ a :: post →
      ∃ w, exec (.construct 0x01#8) s = .next { s with
        regS := a.v, kind := .xs64, valid := true, answers := post, code := .success, phase := .idle, work := w }) ∧
    (pre.length = 10 → s.answers = pre ++ post →
      ∃ w, exec (.construct 0x01#8) s = .next { s with
        answers := post, code := .hardwareEntropyExhausted, phase := .idle,
        failed := s.failed ++ [.hardwareEntropyExhausted], work := w })

/-- 70_reset_and_hazards.md R219, 40_units_mixer_entropy.md R93: a CONSTRUCT whose attempt has no answer yet waits with
BUSY = 1, and when the answers come it ends as if they had been there from the start. -/
def Obligations.EntropyArrivalTimeDoesNotMatter : Prop :=
  ∀ (k : BitVec 8) (s t : State) (later : List Answer), s.phase = .run → s.work.attempts ≤ 10 →
    exec (.construct k) s = .next t → t.phase = .run →
    t.answers = [] ∧
    exec (.construct k) { t with answers := later } = exec (.construct k) { s with answers := s.answers ++ later }

/-- 43_lifecycle.md R163: DESTROY clears VALID and succeeds; S, INC and KIND hold no value afterwards, and nothing else
changes; without an instance it completes with INVALID_INSTANCE; and after it a new CONSTRUCT is not refused. -/
def Obligations.DestroyInvalidatesTheInstance : Prop :=
  ∀ s : State,
    (s.valid = true →
      ∃ t, exec .destroy s = .next t ∧ t.valid = false ∧ t.code = .success ∧ t.phase = .idle ∧
        t = { s with valid := false, code := .success, phase := .idle,
                     regS := t.regS, regInc := t.regInc, kind := t.kind, freeCount := t.freeCount } ∧
        ∀ seed : Word, seed ≠ 0 → ∃ u, exec (.construct 0x00#8) { t with lA := seed } = .next u ∧ u.valid = true) ∧
    (s.valid = false → exec .destroy s =
      .next { s with code := .invalidInstance, phase := .idle, failed := s.failed ++ [.invalidInstance] })

/-- 43_lifecycle.md R164: CONSTRUCT while VALID = 1, and every other command while VALID = 0, complete with
INVALID_INSTANCE and change nothing but CODE. -/
def Obligations.LifecycleMisuseIsInvalidInstance : Prop :=
  ∀ s : State,
    let failing := { s with code := .invalidInstance, phase := .idle, failed := s.failed ++ [.invalidInstance] }
    (s.valid = true → ∀ k, exec (.construct k) s = .next failing) ∧
    (s.valid = false → ∀ i, (∀ k, i ≠ .construct k) → exec i s = .next failing)

/-- 60_exceptions.md R183: the lifecycle check comes before the operand checks and those before everything else; with an
unrecognized kind no entropy attempt is made. -/
def Obligations.OperandChecksComeSecond : Prop :=
  ∀ s : State,
    let failing := { s with
      code := .argumentOutOfBounds, phase := .idle, failed := s.failed ++ [.argumentOutOfBounds] }
    (s.valid = false → ∀ k, k ≠ 0x00#8 → k ≠ 0x01#8 → exec (.construct k) s = .next failing) ∧
    (s.valid = true → s.lB < s.lA → exec .rand s = .next failing) ∧
    (s.valid = true → ¬ (0 < s.lA.toNat ∧ 1 ≤ s.lB.toNat ∧ s.lB.toNat ≤ 64 ∧ s.lA.toNat < 2 ^ s.lB.toNat) →
      exec .bias s = .next failing)

/-- 60_exceptions.md R181: the codes in which each command can end, and when. -/
def Obligations.CodesOfEachCommand : Prop :=
  ∀ (i : Instr) (s t : State), s.phase = .run → exec i s = .next t → t.phase = .idle →
    match i with
    | .construct k =>
      t.code = .success ∨ (t.code = .hardwareEntropyExhausted ∧ s.lA = 0) ∨
        (t.code = .argumentOutOfBounds ∧ k ≠ 0x00#8 ∧ k ≠ 0x01#8) ∨ (t.code = .invalidInstance ∧ s.valid = true)
    | .destroy => t.code = .success ∨ (t.code = .invalidInstance ∧ s.valid = false)
    | .next => t.code = .success ∨ (t.code = .invalidInstance ∧ s.valid = false)
    | .rand =>
      t.code = .success ∨ (t.code = .argumentOutOfBounds ∧ s.lB < s.lA) ∨
        (t.code = .invalidInstance ∧ s.valid = false)
    | .bias =>
      t.code = .success ∨
        (t.code = .argumentOutOfBounds ∧
          ¬ (0 < s.lA.toNat ∧ 1 ≤ s.lB.toNat ∧ s.lB.toNat ≤ 64 ∧ s.lA.toNat < 2 ^ s.lB.toNat)) ∨
        (t.code = .invalidInstance ∧ s.valid = false)
    | .unid => t.code = .success ∨ (t.code = .invalidInstance ∧ s.valid = false)

/-- 60_exceptions.md R184: a failing command leaves S, INC, KIND, VALID, OQ, ARG0, ARG1 and COUNT, and all else but CODE,
PHASE, the record of failures, the answers used and the working values, as it found them; a CONSTRUCT that waits has
changed none of them yet; and a sampling command that has begun cannot fail any more. -/
def Obligations.FailedCommandsChangeNothing : Prop :=
  ∀ (i : Instr) (s t : State), s.phase = .run → exec i s = .next t →
    (t.phase = .idle → t.code ≠ .success →
      t = { s with code := t.code, phase := .idle, failed := s.failed ++ [t.code],
                   answers := t.answers, work := t.work } ∧
      (t.answers = s.answers ∨ t.code = .hardwareEntropyExhausted)) ∧
    (t.phase = .run → (∃ k, i = .construct k) → t = { s with answers := t.answers, work := t.work }) ∧
    (t.phase = .run → (∀ k, i ≠ .construct k) → ∀ (q : List Word) (n : Nat) (u : State),
      exec i { t with oq := q, slice := n } = .next u → u.phase = .idle → u.code = .success)

/-! ### The sampling commands -/

/-- 41_generator_core.md R112, R117, R121: one draw, for each kind; it writes S and nothing else. -/
def Obligations.DrawAdvancesTheInstance : Prop :=
  ∀ s : State,
    (s.kind = .pcg64 →
      s.drawWord = pcgOutput s.regS ∧ s.drawn = { s with regS := pcgAdvance s.regS s.regInc }) ∧
    (s.kind = .xs64 → s.drawWord = xsAdvance s.regS ∧ s.drawn = { s with regS := xsAdvance s.regS })

/-- 41_generator_core.md R122: NEXT emits `count` draws in draw order and changes nothing else (in one engine step, when
there is room in OQ and time); without an instance it completes with INVALID_INSTANCE and changes nothing; the words of
NEXT `a` then NEXT `b` are those of NEXT `a + b`. -/
def Obligations.NextEmitsItsDraws : Prop :=
  (∀ s : State, s.valid = false → exec .next s =
    .next { s with code := .invalidInstance, phase := .idle, failed := s.failed ++ [.invalidInstance] }) ∧
  (∀ s : State, s.startsSampling → s.roomFor s.lN.toNat → 2 * s.lN.toNat + 1 ≤ s.slice →
    exec .next s = .next
      (s.sampled (advanceN s.kind s.regInc s.lN.toNat s.regS) (rawStream s.kind s.regInc s.lN.toNat s.regS))) ∧
  ∀ (kind : GenKind) (inc s : Word) (a b : Nat),
    rawStream kind inc (a + b) s = rawStream kind inc a s ++ rawStream kind inc b (advanceN kind inc a s) ∧
    advanceN kind inc (a + b) s = advanceN kind inc b (advanceN kind inc a s)

/-- 42_sampling.md R150: UNID emits `count` draws, each the fraction `w / 2^64`, a value of `[0, 1 - 2^-64]`; it is NEXT,
state for state; without an instance it completes with INVALID_INSTANCE and changes nothing. -/
def Obligations.UnidEmitsFractions : Prop :=
  (∀ s : State, s.valid = false → exec .unid s =
    .next { s with code := .invalidInstance, phase := .idle, failed := s.failed ++ [.invalidInstance] }) ∧
  (∀ s : State, exec .unid s = exec .next s) ∧
  (∀ s : State, s.startsSampling → s.roomFor s.lN.toNat → 2 * s.lN.toNat + 1 ≤ s.slice →
    exec .unid s = .next
      (s.sampled (advanceN s.kind s.regInc s.lN.toNat s.regS) (rawStream s.kind s.regInc s.lN.toNat s.regS))) ∧
  ∀ w : Word, unidValue w = (w.toNat : Rat) / 2 ^ 64 ∧ 0 ≤ unidValue w ∧ unidValue w ≤ 1 - 1 / 2 ^ 64

/-- 42_sampling.md R132, R133: RAND emits, in draw order, `m + min` for the first `count` draws whose masked value `m` is
not above RANGE, and consumes every draw up to the last of them; `n` is how many that are. Without an instance, and with
`max < min`, it fails and changes nothing, whatever `count` is. -/
def Obligations.RandEmitsAcceptedDraws : Prop :=
  (∀ s : State, s.valid = false → exec .rand s =
    .next { s with code := .invalidInstance, phase := .idle, failed := s.failed ++ [.invalidInstance] }) ∧
  (∀ s : State, s.valid = true → s.lB < s.lA → exec .rand s =
    .next { s with code := .argumentOutOfBounds, phase := .idle, failed := s.failed ++ [.argumentOutOfBounds] }) ∧
  ∀ (s : State) (n : Nat), s.startsSampling → s.lA ≤ s.lB → s.roomFor s.lN.toNat → n + s.lN.toNat + 1 ≤ s.slice →
    let accepted := fun m : Nat =>
      ((rawStream s.kind s.regInc m s.regS).map (· &&& randMask (s.lB - s.lA))).filter (· ≤ s.lB - s.lA)
    (accepted n).length = s.lN.toNat → (∀ m, m < n → (accepted m).length < s.lN.toNat) →
    exec .rand s = .next (s.sampled (advanceN s.kind s.regInc n s.regS) ((accepted n).map (· + s.lA)))

/-- 42_sampling.md R134: every word RAND appends lies in `[min, max]`, in every step of the command. -/
def Obligations.RandSamplesStayInRange : Prop :=
  ∀ s t : State, s.lA ≤ s.lB → (∀ v, s.work.pending = some v → s.lA ≤ v ∧ v ≤ s.lB) → exec .rand s = .next t →
    (∃ ws, t.oq = s.oq ++ ws ∧ ∀ w ∈ ws, s.lA ≤ w ∧ w ≤ s.lB) ∧
      ∀ v, t.work.pending = some v → s.lA ≤ v ∧ v ≤ s.lB

/-- 42_sampling.md R131: RANGE does not wrap, and MASK is the least all-ones word not below RANGE. -/
def Obligations.MaskIsLeastAllOnes : Prop :=
  (∀ min max : Word, min ≤ max → (randRange min max).toNat = max.toNat - min.toNat) ∧
  ∀ range : Word,
    range ≤ randMask range ∧ (∃ k, k ≤ 64 ∧ (randMask range).toNat = 2 ^ k - 1) ∧
    (∀ k, range.toNat ≤ 2 ^ k - 1 → (randMask range).toNat ≤ 2 ^ k - 1) ∧
    (1 ≤ range.toNat → (randMask range).toNat ≤ 2 * range.toNat) ∧
    (range = 0 → randMask range = 0) ∧
    (range ≠ 0 → randMask range = BitVec.allOnes 64 >>> clz64 range)

/-- 42_sampling.md R136: the full-range request is NEXT, state for state; and no draw is rejected when RANGE = MASK, that
is when RANGE + 1 is a power of two. -/
def Obligations.FullRangeRandIsNext : Prop :=
  (∀ s : State, s.lA = 0 → s.lB = 0xFFFFFFFFFFFFFFFF#64 → exec .rand s = exec .next s) ∧
  (∀ min range d : Word, randMask range = range → randAccept min range d = some ((d &&& range) + min)) ∧
  ∀ range : Word, randMask range = range ↔ ∃ k, range.toNat + 1 = 2 ^ k

/-- 42_sampling.md R138: with `min = max` each output costs one draw and equals `min`. -/
def Obligations.RandOfOneValueCostsOneDraw : Prop :=
  ∀ s : State, s.startsSampling → s.lA = s.lB → s.roomFor s.lN.toNat → 2 * s.lN.toNat + 1 ≤ s.slice →
    exec .rand s = .next
      (s.sampled (advanceN s.kind s.regInc s.lN.toNat s.regS) (List.replicate s.lN.toNat s.lA))

/-- 42_sampling.md R140, R146: exactly the operands `bias_check` lets pass. -/
def Obligations.BiasCheckEnforcesTheBounds : Prop :=
  ∀ numerator exponent : Word, biasCheck numerator exponent = true ↔
    0 < numerator.toNat ∧ 1 ≤ exponent.toNat ∧ exponent.toNat ≤ 64 ∧ numerator.toNat < 2 ^ exponent.toNat

/-- 42_sampling.md R141: OFFSET is the position of the lowest one bit, below the exponent, SPAN is 1 to 64, and the
numerator is an odd number of SPAN bits shifted by OFFSET. -/
def Obligations.OffsetAndSpanFactorTheNumerator : Prop :=
  ∀ numerator exponent : Word, biasCheck numerator exponent = true →
    biasOffset numerator < exponent.toNat ∧ biasSpan numerator exponent = exponent.toNat - biasOffset numerator ∧
    1 ≤ biasSpan numerator exponent ∧ biasSpan numerator exponent ≤ 64 ∧
    numerator.getLsbD (biasOffset numerator) = true ∧ (∀ i, i < biasOffset numerator → numerator.getLsbD i = false) ∧
    ∃ m, m % 2 = 1 ∧ m < 2 ^ biasSpan numerator exponent ∧ numerator.toNat = m * 2 ^ biasOffset numerator

/-- 42_sampling.md R142, R143: BIAS emits `count` elements, element `j` made from draws `j * SPAN` to
`j * SPAN + SPAN - 1`, and makes exactly `count * SPAN` draws. Without an instance, and with operands out of bounds, it
fails and changes nothing, whatever `count` is. The last clause is R142's loop: from an accumulator of 0, the draw at index
`k` goes in by OR where bit OFFSET + k of the numerator is 1, and by AND where it is 0. -/
def Obligations.BiasEmitsItsElements : Prop :=
  (∀ s : State, s.valid = false → exec .bias s =
    .next { s with code := .invalidInstance, phase := .idle, failed := s.failed ++ [.invalidInstance] }) ∧
  (∀ s : State, s.valid = true → biasCheck s.lA s.lB = false → exec .bias s =
    .next { s with code := .argumentOutOfBounds, phase := .idle, failed := s.failed ++ [.argumentOutOfBounds] }) ∧
  (∀ s : State, s.startsSampling → biasCheck s.lA s.lB = true → s.roomFor s.lN.toNat →
    s.lN.toNat * (biasSpan s.lA s.lB + 1) + 1 ≤ s.slice →
    exec .bias s = .next
      (s.sampled (advanceN s.kind s.regInc (s.lN.toNat * biasSpan s.lA s.lB) s.regS)
        (biasElements s.kind s.regInc s.regS s.lA (biasSpan s.lA s.lB) s.lN.toNat))) ∧
  ∀ (numerator : Word) (k : Nat) (acc d : Word) (ds : List Word),
    biasFold numerator k acc [] = acc ∧
    biasFold numerator k acc (d :: ds) =
      biasFold numerator (k + 1) (if numerator.getLsbD (biasOffset numerator + k) then acc ||| d else acc &&& d) ds

/-- 42_sampling.md R144 and R142 (the lanes): a lane of an element depends on that lane of the draws alone, and of the
`2^SPAN` outcomes of SPAN fair bits exactly the fraction `numerator / 2^exponent` give a one. -/
def Obligations.BiasIsExact : Prop :=
  ∀ numerator exponent : Word, biasCheck numerator exponent = true → ∀ lane, lane < 64 →
    (∀ ds ds' : List Word, ds.map (·.getLsbD lane) = ds'.map (·.getLsbD lane) →
      (biasFold numerator 0 0 ds).getLsbD lane = (biasFold numerator 0 0 ds').getLsbD lane) ∧
    (laneDraws (biasSpan numerator exponent)).length = 2 ^ biasSpan numerator exponent ∧
    ((laneDraws (biasSpan numerator exponent)).filter fun ds => (biasFold numerator 0 0 ds).getLsbD lane).length
        * 2 ^ exponent.toNat
      = numerator.toNat * 2 ^ biasSpan numerator exponent

/-- 42_sampling.md R143 (corner case): at `p = 1/2` in any spelling an element is one raw draw, so BIAS is NEXT, state for
state, from the start of the command, whatever room OQ has and whatever time the engine gets. -/
def Obligations.BiasOfOneHalfIsRaw : Prop :=
  ∀ s : State, s.startsSampling → biasCheck s.lA s.lB = true → biasSpan s.lA s.lB = 1 → exec .bias s = exec .next s

/-- 70_reset_and_hazards.md R216: a sampling command that completes with success has appended, over all its steps, as many
words as its count: each step appends as many as the element counter grows, and success finds the counter at `count`. -/
def Obligations.SuccessMeansCountWords : Prop :=
  ∀ (i : Instr) (s t : State), i = .next ∨ i = .rand ∨ i = .bias ∨ i = .unid →
    s.phase = .run → s.work.j ≤ s.lN.toNat → (s.work.pending ≠ none → s.work.j < s.lN.toNat) →
    exec i s = .next t →
    (∃ ws, t.oq = s.oq ++ ws ∧ t.work.j = s.work.j + ws.length) ∧
      t.work.j ≤ t.lN.toNat ∧ (t.work.pending ≠ none → t.work.j < t.lN.toNat) ∧
      (t.phase = .idle → t.code = .success → t.work.j = s.lN.toNat)

/-- 10_state.md R36, 00_scope.md R8, 70_reset_and_hazards.md R218: with OQ full, `emit` waits: the engine makes no progress
and no state changes. And OUT_DEPTH changes no emitted word: however the engine's time is cut and the host pops DOUT in
between (`popRounds`), the words read and those left in OQ are, in order, the words that the same command emits into an
unbounded queue, and S and all else of the block are the same; a command that has completed so has done all that it does
with an unbounded queue and any more time; and everything it does with an unbounded queue it can do with any OUT_DEPTH, if
the host pops. So what NextEmitsItsDraws and the like say under `roomFor` reaches every OUT_DEPTH. -/
def Obligations.EmitWaitsWhileQueueIsFull : Prop :=
  (∀ (s : State) (v : Word) (d : Nat), s.phase = .run → s.valid = true → s.work.pending = some v →
    s.platform.outDepth = some d → d ≤ s.oq.length →
    exec .next s = .next s ∧ exec .unid s = .next s ∧ (s.lA ≤ s.lB → exec .rand s = .next s) ∧
      (biasCheck s.lA s.lB = true → exec .bias s = .next s)) ∧
  ∀ (i : Instr) (s : State), i = .next ∨ i = .rand ∨ i = .bias ∨ i = .unid → s.phase = .run →
    (∀ (rounds : List (Nat × Nat)) (t : State) (read : List Word), rounds ≠ [] →
      popRounds i rounds s [] = some (t, read) →
      ∃ n, ∀ m, m = n ∨ (t.phase = .idle ∧ n ≤ m) →
        exec i (s.unbounded m) = .next { t.unbounded m with oq := read ++ t.oq }) ∧
    (∀ (n d : Nat) (u : State), s.platform.outDepth = some d → 0 < d → exec i (s.unbounded n) = .next u →
      ∃ (rounds : List (Nat × Nat)) (t : State) (read : List Word), popRounds i rounds s [] = some (t, read) ∧
        u = { t.unbounded n with oq := read ++ t.oq })

/-- 70_reset_and_hazards.md R222: no result depends on how the engine's time is cut: a command run for `a`
micro-operations and, if it is not done, for `b` more ends as one run for `a + b`. -/
def Obligations.TimeSlicingDoesNotMatter : Prop :=
  ∀ (i : Instr) (s t : State) (a b : Nat), exec i { s with slice := a } = .next t → t.phase = .run →
    ∃ u : State, exec i { t with slice := b } = .next { u with slice := b } ∧
      exec i { s with slice := a + b } = .next { u with slice := a + b }

/-! ### Whole-machine rules -/

/-- 10_state.md R27: every step keeps the state invariants, whoever moves. -/
def Obligations.EveryStepKeepsInstanceInvariant : Prop :=
  ∀ s t : State, InstanceInv s → step s = .next t → InstanceInv t

/-- The invariants hold after reset: of the instance (R27), of CODE (R182) and of OQ (R36), whatever the platform is, that
of State.reset included (its BASE and OUT_DEPTH are the model's choice, log 2). -/
def Obligations.InvariantsHoldAtReset : Prop :=
  (InstanceInv State.reset ∧ CodeInv State.reset ∧ QueueInv State.reset) ∧
  ∀ p : Platform, let s := { State.reset with platform := p }
    InstanceInv s ∧ CodeInv s ∧ QueueInv s

/-- 60_exceptions.md R182, R185: no step ever puts ALLOCATION_FAILURE into CODE, and the record of failures holds only
failures. -/
def Obligations.EveryStepKeepsCodesLegal : Prop :=
  ∀ s t : State, CodeInv s → step s = .next t → CodeInv t

/-- 10_state.md R36, R43: no step ever puts more than OUT_DEPTH words into OQ, and OUT_DEPTH and BASE never change. -/
def Obligations.EveryStepKeepsQueueBound : Prop :=
  ∀ s t : State, step s = .next t → t.platform = s.platform ∧ (QueueInv s → QueueInv t)

/-- 10_state.md R36: words enter OQ only at the tail, while a sampling command runs; they leave only at the head by a read
of DOUT, which returns them, and at reset. -/
def Obligations.QueueIsFirstInFirstOut : Prop :=
  ∀ s t : State, step s = .next t →
    t.oq = s.oq ∨
    (∃ ws i, t.oq = s.oq ++ ws ∧ s.phase = .run ∧ decode s.lCmd = .ok i ∧
      (i = .next ∨ i = .rand ∨ i = .bias ∨ i = .unid)) ∨
    (∃ w, s.oq = w :: t.oq ∧ t.observed = s.observed ++ [⟨.dout, bytesOfWord w⟩]) ∨
    (t.oq = [] ∧ ∃ rest, s.script = .reset :: rest)

/-- 10_state.md R24: VALID is set by a successful CONSTRUCT, cleared by a successful DESTROY and by reset, left 0 by a
failed CONSTRUCT, and read as STATUS[9]. -/
def Obligations.OnlyLifecycleChangesValid : Prop :=
  (∀ s t : State, step s = .next t →
    (s.valid = false → t.valid = true →
      s.phase = .run ∧ ∃ k, decode s.lCmd = .ok (.construct k) ∧ t.code = .success ∧ t.phase = .idle) ∧
    (s.valid = true → t.valid = false →
      (s.phase = .run ∧ decode s.lCmd = .ok .destroy ∧ t.code = .success ∧ t.phase = .idle) ∨
        ∃ rest, s.script = .reset :: rest)) ∧
  (∀ (k : BitVec 8) (s t : State), s.phase = .run → s.valid = false → exec (.construct k) s = .next t →
    t.phase = .idle → (t.valid = true ↔ t.code = .success)) ∧
  (∀ s : State, s.valid = true →
    ∃ t, exec .destroy s = .next t ∧ t.code = .success ∧ t.phase = .idle ∧ t.valid = false) ∧
  (∀ (s t : State) (rest : List Event), s.script = .reset :: rest → step s = .next t → t.valid = false) ∧
  ∀ s : State, (statusWord s).getLsbD 9 = s.valid

/-- 10_state.md R22, R23: while an instance lives, INC and KIND never change, whatever step is taken. -/
def Obligations.IncAndKindAreFixedForLife : Prop :=
  ∀ s t : State, step s = .next t → s.valid = true → t.valid = true → t.regInc = s.regInc ∧ t.kind = s.kind

/-- 60_exceptions.md R185: the record of failures grows exactly when a running command completes with a non-zero code, by
that code, and nothing clears it (a RESET, which leaves CODE at SUCCESS, is no completion). -/
def Obligations.FailuresAreRecordedForEver : Prop :=
  (∀ s t : State, step s = .next t →
    t.failed = s.failed ∨
    (t.failed = s.failed ++ [t.code] ∧ t.code ≠ .success ∧ s.phase = .run ∧ t.phase = .idle)) ∧
  ∀ s t : State, step s = .next t → s.phase = .run → t.phase = .idle → t.code ≠ .success →
    t.failed = s.failed ++ [t.code]

/-- 41_generator_core.md R123: two blocks, whatever they held before, after the same CONSTRUCT with the same non-zero
seed hold the same instance and draw the same stream. -/
def Obligations.EqualSeedsGiveEqualStreams : Prop :=
  ∀ (k : BitVec 8) (s₁ s₂ : State), k = 0x00#8 ∨ k = 0x01#8 → s₁.valid = false → s₂.valid = false →
    s₁.lA = s₂.lA → s₁.lA ≠ 0 →
    ∃ t₁ t₂, exec (.construct k) s₁ = .next t₁ ∧ exec (.construct k) s₂ = .next t₂ ∧
      t₁.valid = true ∧ t₂.valid = true ∧ t₁.kind = t₂.kind ∧ t₁.regS = t₂.regS ∧
      (t₁.kind = .pcg64 → t₁.regInc = t₂.regInc) ∧
      ∀ n, rawStream t₁.kind t₁.regInc n t₁.regS = rawStream t₂.kind t₂.regInc n t₂.regS

/-- 10_state.md R25 with items U5, U6: what S, INC and KIND hold while VALID = 0, and INC under XS64, can never be
observed: states that differ only there step to the same outcome but for such registers. -/
def Obligations.NoValueIsNeverObserved : Prop :=
  ∀ s t : State, SameButNoValue s t → SameOutcome (step s) (step t)

/-- 30_encoding.md R79 (WAIT), 70_reset_and_hazards.md R218 and 60_exceptions.md R192: WAIT ends with the STATUS read that
finds BUSY = 0; before that a WAIT that pops reads DOUT whenever OAVAIL = 1, and goes on; with nothing left to do the idle
block keeps all its state. That the step of a popping WAIT adds only the read of DOUT to what the host has observed (last
clause) is the model's choice, log 14: R79's host reads STATUS first to see OAVAIL = 1, and such a read, which finds
BUSY = 1, is not recorded. -/
def Obligations.IdleBlockRests : Prop :=
  ∀ s : State,
    (s.phase = .idle →
      (s.script = [] → step s = .next s) ∧
      (∀ popping rest, s.script = .wait popping :: rest →
        step s = .next { s with script := rest, observed := s.observed ++ [⟨.status, bytesOfWord (statusWord s)⟩] })) ∧
    ∀ w ws rest, s.phase = .run → s.script = .wait true :: rest → s.oq = w :: ws →
      step s = .next { s with oq := ws, observed := s.observed ++ [⟨.dout, bytesOfWord w⟩] }
end

