-- ==== Sys2Proof/Laws/State.lean ====
section
/-! SUPPORT. What each named operation does to each field of the state: one lemma a field, true by unfolding. -/

namespace Sys2Proof.Machine

@[simp] theorem State.accept_regS (s : State) (w : Word) : (s.accept w).regS = s.regS := rfl
@[simp] theorem State.accept_regInc (s : State) (w : Word) : (s.accept w).regInc = s.regInc := rfl
@[simp] theorem State.accept_kind (s : State) (w : Word) : (s.accept w).kind = s.kind := rfl
@[simp] theorem State.accept_valid (s : State) (w : Word) : (s.accept w).valid = s.valid := rfl
@[simp] theorem State.accept_phase (s : State) (w : Word) : (s.accept w).phase = .run := rfl
@[simp] theorem State.accept_code (s : State) (w : Word) : (s.accept w).code = s.code := rfl
@[simp] theorem State.accept_arg0 (s : State) (w : Word) : (s.accept w).arg0 = s.arg0 := rfl
@[simp] theorem State.accept_arg1 (s : State) (w : Word) : (s.accept w).arg1 = s.arg1 := rfl
@[simp] theorem State.accept_count (s : State) (w : Word) : (s.accept w).count = s.count := rfl
@[simp] theorem State.accept_oq (s : State) (w : Word) : (s.accept w).oq = s.oq := rfl
@[simp] theorem State.accept_lCmd (s : State) (w : Word) : (s.accept w).lCmd = w := rfl
@[simp] theorem State.accept_lA (s : State) (w : Word) : (s.accept w).lA = s.arg0 := rfl
@[simp] theorem State.accept_lB (s : State) (w : Word) : (s.accept w).lB = s.arg1 := rfl
@[simp] theorem State.accept_lN (s : State) (w : Word) : (s.accept w).lN = s.count := rfl
@[simp] theorem State.accept_work (s : State) (w : Word) : (s.accept w).work = Work.fresh := rfl
@[simp] theorem State.accept_platform (s : State) (w : Word) : (s.accept w).platform = s.platform := rfl
@[simp] theorem State.accept_script (s : State) (w : Word) : (s.accept w).script = s.script := rfl
@[simp] theorem State.accept_answers (s : State) (w : Word) : (s.accept w).answers = s.answers := rfl
@[simp] theorem State.accept_slice (s : State) (w : Word) : (s.accept w).slice = s.slice := rfl
@[simp] theorem State.accept_dropped (s : State) (w : Word) : (s.accept w).dropped = s.dropped := rfl
@[simp] theorem State.accept_freeCount (s : State) (w : Word) : (s.accept w).freeCount = s.freeCount := rfl
@[simp] theorem State.accept_observed (s : State) (w : Word) : (s.accept w).observed = s.observed := rfl
@[simp] theorem State.accept_failed (s : State) (w : Word) : (s.accept w).failed = s.failed := rfl

@[simp] theorem State.raise_regS (s : State) (c : ResultCode) : (s.raise c).regS = s.regS := rfl
@[simp] theorem State.raise_regInc (s : State) (c : ResultCode) : (s.raise c).regInc = s.regInc := rfl
@[simp] theorem State.raise_kind (s : State) (c : ResultCode) : (s.raise c).kind = s.kind := rfl
@[simp] theorem State.raise_valid (s : State) (c : ResultCode) : (s.raise c).valid = s.valid := rfl
@[simp] theorem State.raise_phase (s : State) (c : ResultCode) : (s.raise c).phase = .idle := rfl
@[simp] theorem State.raise_code (s : State) (c : ResultCode) : (s.raise c).code = c := rfl
@[simp] theorem State.raise_arg0 (s : State) (c : ResultCode) : (s.raise c).arg0 = s.arg0 := rfl
@[simp] theorem State.raise_arg1 (s : State) (c : ResultCode) : (s.raise c).arg1 = s.arg1 := rfl
@[simp] theorem State.raise_count (s : State) (c : ResultCode) : (s.raise c).count = s.count := rfl
@[simp] theorem State.raise_oq (s : State) (c : ResultCode) : (s.raise c).oq = s.oq := rfl
@[simp] theorem State.raise_lCmd (s : State) (c : ResultCode) : (s.raise c).lCmd = s.lCmd := rfl
@[simp] theorem State.raise_lA (s : State) (c : ResultCode) : (s.raise c).lA = s.lA := rfl
@[simp] theorem State.raise_lB (s : State) (c : ResultCode) : (s.raise c).lB = s.lB := rfl
@[simp] theorem State.raise_lN (s : State) (c : ResultCode) : (s.raise c).lN = s.lN := rfl
@[simp] theorem State.raise_work (s : State) (c : ResultCode) : (s.raise c).work = s.work := rfl
@[simp] theorem State.raise_platform (s : State) (c : ResultCode) : (s.raise c).platform = s.platform := rfl
@[simp] theorem State.raise_script (s : State) (c : ResultCode) : (s.raise c).script = s.script := rfl
@[simp] theorem State.raise_answers (s : State) (c : ResultCode) : (s.raise c).answers = s.answers := rfl
@[simp] theorem State.raise_slice (s : State) (c : ResultCode) : (s.raise c).slice = s.slice := rfl
@[simp] theorem State.raise_dropped (s : State) (c : ResultCode) : (s.raise c).dropped = s.dropped := rfl
@[simp] theorem State.raise_freeCount (s : State) (c : ResultCode) : (s.raise c).freeCount = s.freeCount := rfl
@[simp] theorem State.raise_observed (s : State) (c : ResultCode) : (s.raise c).observed = s.observed := rfl
@[simp] theorem State.raise_failed (s : State) (c : ResultCode) : (s.raise c).failed = s.failed ++ [c] := rfl

@[simp] theorem State.succeed_regS (s : State) : (s.succeed).regS = s.regS := rfl
@[simp] theorem State.succeed_regInc (s : State) : (s.succeed).regInc = s.regInc := rfl
@[simp] theorem State.succeed_kind (s : State) : (s.succeed).kind = s.kind := rfl
@[simp] theorem State.succeed_valid (s : State) : (s.succeed).valid = s.valid := rfl
@[simp] theorem State.succeed_phase (s : State) : (s.succeed).phase = .idle := rfl
@[simp] theorem State.succeed_code (s : State) : (s.succeed).code = .success := rfl
@[simp] theorem State.succeed_arg0 (s : State) : (s.succeed).arg0 = s.arg0 := rfl
@[simp] theorem State.succeed_arg1 (s : State) : (s.succeed).arg1 = s.arg1 := rfl
@[simp] theorem State.succeed_count (s : State) : (s.succeed).count = s.count := rfl
@[simp] theorem State.succeed_oq (s : State) : (s.succeed).oq = s.oq := rfl
@[simp] theorem State.succeed_lCmd (s : State) : (s.succeed).lCmd = s.lCmd := rfl
@[simp] theorem State.succeed_lA (s : State) : (s.succeed).lA = s.lA := rfl
@[simp] theorem State.succeed_lB (s : State) : (s.succeed).lB = s.lB := rfl
@[simp] theorem State.succeed_lN (s : State) : (s.succeed).lN = s.lN := rfl
@[simp] theorem State.succeed_work (s : State) : (s.succeed).work = s.work := rfl
@[simp] theorem State.succeed_platform (s : State) : (s.succeed).platform = s.platform := rfl
@[simp] theorem State.succeed_script (s : State) : (s.succeed).script = s.script := rfl
@[simp] theorem State.succeed_answers (s : State) : (s.succeed).answers = s.answers := rfl
@[simp] theorem State.succeed_slice (s : State) : (s.succeed).slice = s.slice := rfl
@[simp] theorem State.succeed_dropped (s : State) : (s.succeed).dropped = s.dropped := rfl
@[simp] theorem State.succeed_freeCount (s : State) : (s.succeed).freeCount = s.freeCount := rfl
@[simp] theorem State.succeed_observed (s : State) : (s.succeed).observed = s.observed := rfl
@[simp] theorem State.succeed_failed (s : State) : (s.succeed).failed = s.failed := rfl

@[simp] theorem State.drawn_regS (s : State) : (s.drawn).regS = advance s.kind s.regInc s.regS := rfl
@[simp] theorem State.drawn_regInc (s : State) : (s.drawn).regInc = s.regInc := rfl
@[simp] theorem State.drawn_kind (s : State) : (s.drawn).kind = s.kind := rfl
@[simp] theorem State.drawn_valid (s : State) : (s.drawn).valid = s.valid := rfl
@[simp] theorem State.drawn_phase (s : State) : (s.drawn).phase = s.phase := rfl
@[simp] theorem State.drawn_code (s : State) : (s.drawn).code = s.code := rfl
@[simp] theorem State.drawn_arg0 (s : State) : (s.drawn).arg0 = s.arg0 := rfl
@[simp] theorem State.drawn_arg1 (s : State) : (s.drawn).arg1 = s.arg1 := rfl
@[simp] theorem State.drawn_count (s : State) : (s.drawn).count = s.count := rfl
@[simp] theorem State.drawn_oq (s : State) : (s.drawn).oq = s.oq := rfl
@[simp] theorem State.drawn_lCmd (s : State) : (s.drawn).lCmd = s.lCmd := rfl
@[simp] theorem State.drawn_lA (s : State) : (s.drawn).lA = s.lA := rfl
@[simp] theorem State.drawn_lB (s : State) : (s.drawn).lB = s.lB := rfl
@[simp] theorem State.drawn_lN (s : State) : (s.drawn).lN = s.lN := rfl
@[simp] theorem State.drawn_work (s : State) : (s.drawn).work = s.work := rfl
@[simp] theorem State.drawn_platform (s : State) : (s.drawn).platform = s.platform := rfl
@[simp] theorem State.drawn_script (s : State) : (s.drawn).script = s.script := rfl
@[simp] theorem State.drawn_answers (s : State) : (s.drawn).answers = s.answers := rfl
@[simp] theorem State.drawn_slice (s : State) : (s.drawn).slice = s.slice := rfl
@[simp] theorem State.drawn_dropped (s : State) : (s.drawn).dropped = s.dropped := rfl
@[simp] theorem State.drawn_freeCount (s : State) : (s.drawn).freeCount = s.freeCount := rfl
@[simp] theorem State.drawn_observed (s : State) : (s.drawn).observed = s.observed := rfl
@[simp] theorem State.drawn_failed (s : State) : (s.drawn).failed = s.failed := rfl

@[simp] theorem State.emit_regS (s : State) (v : Word) : (s.emit v).regS = s.regS := rfl
@[simp] theorem State.emit_regInc (s : State) (v : Word) : (s.emit v).regInc = s.regInc := rfl
@[simp] theorem State.emit_kind (s : State) (v : Word) : (s.emit v).kind = s.kind := rfl
@[simp] theorem State.emit_valid (s : State) (v : Word) : (s.emit v).valid = s.valid := rfl
@[simp] theorem State.emit_phase (s : State) (v : Word) : (s.emit v).phase = s.phase := rfl
@[simp] theorem State.emit_code (s : State) (v : Word) : (s.emit v).code = s.code := rfl
@[simp] theorem State.emit_arg0 (s : State) (v : Word) : (s.emit v).arg0 = s.arg0 := rfl
@[simp] theorem State.emit_arg1 (s : State) (v : Word) : (s.emit v).arg1 = s.arg1 := rfl
@[simp] theorem State.emit_count (s : State) (v : Word) : (s.emit v).count = s.count := rfl
@[simp] theorem State.emit_oq (s : State) (v : Word) : (s.emit v).oq = s.oq ++ [v] := rfl
@[simp] theorem State.emit_lCmd (s : State) (v : Word) : (s.emit v).lCmd = s.lCmd := rfl
@[simp] theorem State.emit_lA (s : State) (v : Word) : (s.emit v).lA = s.lA := rfl
@[simp] theorem State.emit_lB (s : State) (v : Word) : (s.emit v).lB = s.lB := rfl
@[simp] theorem State.emit_lN (s : State) (v : Word) : (s.emit v).lN = s.lN := rfl
@[simp] theorem State.emit_work (s : State) (v : Word) : (s.emit v).work = { s.work with j := s.work.j + 1, pending := none } := rfl
@[simp] theorem State.emit_platform (s : State) (v : Word) : (s.emit v).platform = s.platform := rfl
@[simp] theorem State.emit_script (s : State) (v : Word) : (s.emit v).script = s.script := rfl
@[simp] theorem State.emit_answers (s : State) (v : Word) : (s.emit v).answers = s.answers := rfl
@[simp] theorem State.emit_slice (s : State) (v : Word) : (s.emit v).slice = s.slice := rfl
@[simp] theorem State.emit_dropped (s : State) (v : Word) : (s.emit v).dropped = s.dropped := rfl
@[simp] theorem State.emit_freeCount (s : State) (v : Word) : (s.emit v).freeCount = s.freeCount := rfl
@[simp] theorem State.emit_observed (s : State) (v : Word) : (s.emit v).observed = s.observed := rfl
@[simp] theorem State.emit_failed (s : State) (v : Word) : (s.emit v).failed = s.failed := rfl

@[simp] theorem State.due_regS (s : State) (v : Word) : (s.due v).regS = s.regS := rfl
@[simp] theorem State.due_regInc (s : State) (v : Word) : (s.due v).regInc = s.regInc := rfl
@[simp] theorem State.due_kind (s : State) (v : Word) : (s.due v).kind = s.kind := rfl
@[simp] theorem State.due_valid (s : State) (v : Word) : (s.due v).valid = s.valid := rfl
@[simp] theorem State.due_phase (s : State) (v : Word) : (s.due v).phase = s.phase := rfl
@[simp] theorem State.due_code (s : State) (v : Word) : (s.due v).code = s.code := rfl
@[simp] theorem State.due_arg0 (s : State) (v : Word) : (s.due v).arg0 = s.arg0 := rfl
@[simp] theorem State.due_arg1 (s : State) (v : Word) : (s.due v).arg1 = s.arg1 := rfl
@[simp] theorem State.due_count (s : State) (v : Word) : (s.due v).count = s.count := rfl
@[simp] theorem State.due_oq (s : State) (v : Word) : (s.due v).oq = s.oq := rfl
@[simp] theorem State.due_lCmd (s : State) (v : Word) : (s.due v).lCmd = s.lCmd := rfl
@[simp] theorem State.due_lA (s : State) (v : Word) : (s.due v).lA = s.lA := rfl
@[simp] theorem State.due_lB (s : State) (v : Word) : (s.due v).lB = s.lB := rfl
@[simp] theorem State.due_lN (s : State) (v : Word) : (s.due v).lN = s.lN := rfl
@[simp] theorem State.due_work (s : State) (v : Word) : (s.due v).work = { s.work with pending := some v, k := 0, acc := 0 } := rfl
@[simp] theorem State.due_platform (s : State) (v : Word) : (s.due v).platform = s.platform := rfl
@[simp] theorem State.due_script (s : State) (v : Word) : (s.due v).script = s.script := rfl
@[simp] theorem State.due_answers (s : State) (v : Word) : (s.due v).answers = s.answers := rfl
@[simp] theorem State.due_slice (s : State) (v : Word) : (s.due v).slice = s.slice := rfl
@[simp] theorem State.due_dropped (s : State) (v : Word) : (s.due v).dropped = s.dropped := rfl
@[simp] theorem State.due_freeCount (s : State) (v : Word) : (s.due v).freeCount = s.freeCount := rfl
@[simp] theorem State.due_observed (s : State) (v : Word) : (s.due v).observed = s.observed := rfl
@[simp] theorem State.due_failed (s : State) (v : Word) : (s.due v).failed = s.failed := rfl

@[simp] theorem State.carry_regS (s : State) (k : Nat) (acc : Word) : (s.carry k acc).regS = s.regS := rfl
@[simp] theorem State.carry_regInc (s : State) (k : Nat) (acc : Word) : (s.carry k acc).regInc = s.regInc := rfl
@[simp] theorem State.carry_kind (s : State) (k : Nat) (acc : Word) : (s.carry k acc).kind = s.kind := rfl
@[simp] theorem State.carry_valid (s : State) (k : Nat) (acc : Word) : (s.carry k acc).valid = s.valid := rfl
@[simp] theorem State.carry_phase (s : State) (k : Nat) (acc : Word) : (s.carry k acc).phase = s.phase := rfl
@[simp] theorem State.carry_code (s : State) (k : Nat) (acc : Word) : (s.carry k acc).code = s.code := rfl
@[simp] theorem State.carry_arg0 (s : State) (k : Nat) (acc : Word) : (s.carry k acc).arg0 = s.arg0 := rfl
@[simp] theorem State.carry_arg1 (s : State) (k : Nat) (acc : Word) : (s.carry k acc).arg1 = s.arg1 := rfl
@[simp] theorem State.carry_count (s : State) (k : Nat) (acc : Word) : (s.carry k acc).count = s.count := rfl
@[simp] theorem State.carry_oq (s : State) (k : Nat) (acc : Word) : (s.carry k acc).oq = s.oq := rfl
@[simp] theorem State.carry_lCmd (s : State) (k : Nat) (acc : Word) : (s.carry k acc).lCmd = s.lCmd := rfl
@[simp] theorem State.carry_lA (s : State) (k : Nat) (acc : Word) : (s.carry k acc).lA = s.lA := rfl
@[simp] theorem State.carry_lB (s : State) (k : Nat) (acc : Word) : (s.carry k acc).lB = s.lB := rfl
@[simp] theorem State.carry_lN (s : State) (k : Nat) (acc : Word) : (s.carry k acc).lN = s.lN := rfl
@[simp] theorem State.carry_work (s : State) (k : Nat) (acc : Word) : (s.carry k acc).work = { s.work with k := k, acc := acc } := rfl
@[simp] theorem State.carry_platform (s : State) (k : Nat) (acc : Word) : (s.carry k acc).platform = s.platform := rfl
@[simp] theorem State.carry_script (s : State) (k : Nat) (acc : Word) : (s.carry k acc).script = s.script := rfl
@[simp] theorem State.carry_answers (s : State) (k : Nat) (acc : Word) : (s.carry k acc).answers = s.answers := rfl
@[simp] theorem State.carry_slice (s : State) (k : Nat) (acc : Word) : (s.carry k acc).slice = s.slice := rfl
@[simp] theorem State.carry_dropped (s : State) (k : Nat) (acc : Word) : (s.carry k acc).dropped = s.dropped := rfl
@[simp] theorem State.carry_freeCount (s : State) (k : Nat) (acc : Word) : (s.carry k acc).freeCount = s.freeCount := rfl
@[simp] theorem State.carry_observed (s : State) (k : Nat) (acc : Word) : (s.carry k acc).observed = s.observed := rfl
@[simp] theorem State.carry_failed (s : State) (k : Nat) (acc : Word) : (s.carry k acc).failed = s.failed := rfl

@[simp] theorem State.installXs_regS (s : State) (v : Word) : (s.installXs v).regS = v := rfl
@[simp] theorem State.installXs_regInc (s : State) (v : Word) : (s.installXs v).regInc = s.regInc := rfl
@[simp] theorem State.installXs_kind (s : State) (v : Word) : (s.installXs v).kind = .xs64 := rfl
@[simp] theorem State.installXs_valid (s : State) (v : Word) : (s.installXs v).valid = true := rfl
@[simp] theorem State.installXs_phase (s : State) (v : Word) : (s.installXs v).phase = s.phase := rfl
@[simp] theorem State.installXs_code (s : State) (v : Word) : (s.installXs v).code = s.code := rfl
@[simp] theorem State.installXs_arg0 (s : State) (v : Word) : (s.installXs v).arg0 = s.arg0 := rfl
@[simp] theorem State.installXs_arg1 (s : State) (v : Word) : (s.installXs v).arg1 = s.arg1 := rfl
@[simp] theorem State.installXs_count (s : State) (v : Word) : (s.installXs v).count = s.count := rfl
@[simp] theorem State.installXs_oq (s : State) (v : Word) : (s.installXs v).oq = s.oq := rfl
@[simp] theorem State.installXs_lCmd (s : State) (v : Word) : (s.installXs v).lCmd = s.lCmd := rfl
@[simp] theorem State.installXs_lA (s : State) (v : Word) : (s.installXs v).lA = s.lA := rfl
@[simp] theorem State.installXs_lB (s : State) (v : Word) : (s.installXs v).lB = s.lB := rfl
@[simp] theorem State.installXs_lN (s : State) (v : Word) : (s.installXs v).lN = s.lN := rfl
@[simp] theorem State.installXs_work (s : State) (v : Word) : (s.installXs v).work = s.work := rfl
@[simp] theorem State.installXs_platform (s : State) (v : Word) : (s.installXs v).platform = s.platform := rfl
@[simp] theorem State.installXs_script (s : State) (v : Word) : (s.installXs v).script = s.script := rfl
@[simp] theorem State.installXs_answers (s : State) (v : Word) : (s.installXs v).answers = s.answers := rfl
@[simp] theorem State.installXs_slice (s : State) (v : Word) : (s.installXs v).slice = s.slice := rfl
@[simp] theorem State.installXs_dropped (s : State) (v : Word) : (s.installXs v).dropped = s.dropped := rfl
@[simp] theorem State.installXs_freeCount (s : State) (v : Word) : (s.installXs v).freeCount = s.freeCount := rfl
@[simp] theorem State.installXs_observed (s : State) (v : Word) : (s.installXs v).observed = s.observed := rfl
@[simp] theorem State.installXs_failed (s : State) (v : Word) : (s.installXs v).failed = s.failed := rfl

@[simp] theorem State.installPcg_regS (s : State) (v inc : Word) : (s.installPcg v inc).regS = v := rfl
@[simp] theorem State.installPcg_regInc (s : State) (v inc : Word) : (s.installPcg v inc).regInc = inc ||| 1 := rfl
@[simp] theorem State.installPcg_kind (s : State) (v inc : Word) : (s.installPcg v inc).kind = .pcg64 := rfl
@[simp] theorem State.installPcg_valid (s : State) (v inc : Word) : (s.installPcg v inc).valid = true := rfl
@[simp] theorem State.installPcg_phase (s : State) (v inc : Word) : (s.installPcg v inc).phase = s.phase := rfl
@[simp] theorem State.installPcg_code (s : State) (v inc : Word) : (s.installPcg v inc).code = s.code := rfl
@[simp] theorem State.installPcg_arg0 (s : State) (v inc : Word) : (s.installPcg v inc).arg0 = s.arg0 := rfl
@[simp] theorem State.installPcg_arg1 (s : State) (v inc : Word) : (s.installPcg v inc).arg1 = s.arg1 := rfl
@[simp] theorem State.installPcg_count (s : State) (v inc : Word) : (s.installPcg v inc).count = s.count := rfl
@[simp] theorem State.installPcg_oq (s : State) (v inc : Word) : (s.installPcg v inc).oq = s.oq := rfl
@[simp] theorem State.installPcg_lCmd (s : State) (v inc : Word) : (s.installPcg v inc).lCmd = s.lCmd := rfl
@[simp] theorem State.installPcg_lA (s : State) (v inc : Word) : (s.installPcg v inc).lA = s.lA := rfl
@[simp] theorem State.installPcg_lB (s : State) (v inc : Word) : (s.installPcg v inc).lB = s.lB := rfl
@[simp] theorem State.installPcg_lN (s : State) (v inc : Word) : (s.installPcg v inc).lN = s.lN := rfl
@[simp] theorem State.installPcg_work (s : State) (v inc : Word) : (s.installPcg v inc).work = s.work := rfl
@[simp] theorem State.installPcg_platform (s : State) (v inc : Word) : (s.installPcg v inc).platform = s.platform := rfl
@[simp] theorem State.installPcg_script (s : State) (v inc : Word) : (s.installPcg v inc).script = s.script := rfl
@[simp] theorem State.installPcg_answers (s : State) (v inc : Word) : (s.installPcg v inc).answers = s.answers := rfl
@[simp] theorem State.installPcg_slice (s : State) (v inc : Word) : (s.installPcg v inc).slice = s.slice := rfl
@[simp] theorem State.installPcg_dropped (s : State) (v inc : Word) : (s.installPcg v inc).dropped = s.dropped := rfl
@[simp] theorem State.installPcg_freeCount (s : State) (v inc : Word) : (s.installPcg v inc).freeCount = s.freeCount := rfl
@[simp] theorem State.installPcg_observed (s : State) (v inc : Word) : (s.installPcg v inc).observed = s.observed := rfl
@[simp] theorem State.installPcg_failed (s : State) (v inc : Word) : (s.installPcg v inc).failed = s.failed := rfl

@[simp] theorem State.discard_regS (s : State) : (s.discard).regS = Config.freeWord s.freeCount := rfl
@[simp] theorem State.discard_regInc (s : State) : (s.discard).regInc = Config.freeWord (s.freeCount + 1) := rfl
@[simp] theorem State.discard_kind (s : State) : (s.discard).kind = Config.freeKind (s.freeCount + 2) := rfl
@[simp] theorem State.discard_valid (s : State) : (s.discard).valid = false := rfl
@[simp] theorem State.discard_phase (s : State) : (s.discard).phase = s.phase := rfl
@[simp] theorem State.discard_code (s : State) : (s.discard).code = s.code := rfl
@[simp] theorem State.discard_arg0 (s : State) : (s.discard).arg0 = s.arg0 := rfl
@[simp] theorem State.discard_arg1 (s : State) : (s.discard).arg1 = s.arg1 := rfl
@[simp] theorem State.discard_count (s : State) : (s.discard).count = s.count := rfl
@[simp] theorem State.discard_oq (s : State) : (s.discard).oq = s.oq := rfl
@[simp] theorem State.discard_lCmd (s : State) : (s.discard).lCmd = s.lCmd := rfl
@[simp] theorem State.discard_lA (s : State) : (s.discard).lA = s.lA := rfl
@[simp] theorem State.discard_lB (s : State) : (s.discard).lB = s.lB := rfl
@[simp] theorem State.discard_lN (s : State) : (s.discard).lN = s.lN := rfl
@[simp] theorem State.discard_work (s : State) : (s.discard).work = s.work := rfl
@[simp] theorem State.discard_platform (s : State) : (s.discard).platform = s.platform := rfl
@[simp] theorem State.discard_script (s : State) : (s.discard).script = s.script := rfl
@[simp] theorem State.discard_answers (s : State) : (s.discard).answers = s.answers := rfl
@[simp] theorem State.discard_slice (s : State) : (s.discard).slice = s.slice := rfl
@[simp] theorem State.discard_dropped (s : State) : (s.discard).dropped = s.dropped := rfl
@[simp] theorem State.discard_freeCount (s : State) : (s.discard).freeCount = s.freeCount + 3 := rfl
@[simp] theorem State.discard_observed (s : State) : (s.discard).observed = s.observed := rfl
@[simp] theorem State.discard_failed (s : State) : (s.discard).failed = s.failed := rfl

@[simp] theorem State.resetBlock_regS (s : State) : (s.resetBlock).regS = State.reset.regS := rfl
@[simp] theorem State.resetBlock_regInc (s : State) : (s.resetBlock).regInc = State.reset.regInc := rfl
@[simp] theorem State.resetBlock_kind (s : State) : (s.resetBlock).kind = State.reset.kind := rfl
@[simp] theorem State.resetBlock_valid (s : State) : (s.resetBlock).valid = State.reset.valid := rfl
@[simp] theorem State.resetBlock_phase (s : State) : (s.resetBlock).phase = State.reset.phase := rfl
@[simp] theorem State.resetBlock_code (s : State) : (s.resetBlock).code = State.reset.code := rfl
@[simp] theorem State.resetBlock_arg0 (s : State) : (s.resetBlock).arg0 = State.reset.arg0 := rfl
@[simp] theorem State.resetBlock_arg1 (s : State) : (s.resetBlock).arg1 = State.reset.arg1 := rfl
@[simp] theorem State.resetBlock_count (s : State) : (s.resetBlock).count = State.reset.count := rfl
@[simp] theorem State.resetBlock_oq (s : State) : (s.resetBlock).oq = State.reset.oq := rfl
@[simp] theorem State.resetBlock_lCmd (s : State) : (s.resetBlock).lCmd = State.reset.lCmd := rfl
@[simp] theorem State.resetBlock_lA (s : State) : (s.resetBlock).lA = State.reset.lA := rfl
@[simp] theorem State.resetBlock_lB (s : State) : (s.resetBlock).lB = State.reset.lB := rfl
@[simp] theorem State.resetBlock_lN (s : State) : (s.resetBlock).lN = State.reset.lN := rfl
@[simp] theorem State.resetBlock_work (s : State) : (s.resetBlock).work = State.reset.work := rfl
@[simp] theorem State.resetBlock_platform (s : State) : (s.resetBlock).platform = s.platform := rfl
@[simp] theorem State.resetBlock_script (s : State) : (s.resetBlock).script = s.script := rfl
@[simp] theorem State.resetBlock_answers (s : State) :
    (s.resetBlock).answers = if s.requestInFlight then s.answers.tail else s.answers := rfl
@[simp] theorem State.resetBlock_dropped (s : State) :
    (s.resetBlock).dropped = if s.requestInFlight && s.answers.isEmpty then s.dropped + 1 else s.dropped := rfl
@[simp] theorem State.resetBlock_slice (s : State) : (s.resetBlock).slice = s.slice := rfl
@[simp] theorem State.resetBlock_freeCount (s : State) : (s.resetBlock).freeCount = s.freeCount := rfl
@[simp] theorem State.resetBlock_observed (s : State) : (s.resetBlock).observed = s.observed := rfl
@[simp] theorem State.resetBlock_failed (s : State) : (s.resetBlock).failed = s.failed := rfl

@[simp] theorem State.observe_regS (s : State) (r : Reg) (v : Word) : (s.observe r v).regS = s.regS := rfl
@[simp] theorem State.observe_regInc (s : State) (r : Reg) (v : Word) : (s.observe r v).regInc = s.regInc := rfl
@[simp] theorem State.observe_kind (s : State) (r : Reg) (v : Word) : (s.observe r v).kind = s.kind := rfl
@[simp] theorem State.observe_valid (s : State) (r : Reg) (v : Word) : (s.observe r v).valid = s.valid := rfl
@[simp] theorem State.observe_phase (s : State) (r : Reg) (v : Word) : (s.observe r v).phase = s.phase := rfl
@[simp] theorem State.observe_code (s : State) (r : Reg) (v : Word) : (s.observe r v).code = s.code := rfl
@[simp] theorem State.observe_arg0 (s : State) (r : Reg) (v : Word) : (s.observe r v).arg0 = s.arg0 := rfl
@[simp] theorem State.observe_arg1 (s : State) (r : Reg) (v : Word) : (s.observe r v).arg1 = s.arg1 := rfl
@[simp] theorem State.observe_count (s : State) (r : Reg) (v : Word) : (s.observe r v).count = s.count := rfl
@[simp] theorem State.observe_oq (s : State) (r : Reg) (v : Word) : (s.observe r v).oq = s.oq := rfl
@[simp] theorem State.observe_lCmd (s : State) (r : Reg) (v : Word) : (s.observe r v).lCmd = s.lCmd := rfl
@[simp] theorem State.observe_lA (s : State) (r : Reg) (v : Word) : (s.observe r v).lA = s.lA := rfl
@[simp] theorem State.observe_lB (s : State) (r : Reg) (v : Word) : (s.observe r v).lB = s.lB := rfl
@[simp] theorem State.observe_lN (s : State) (r : Reg) (v : Word) : (s.observe r v).lN = s.lN := rfl
@[simp] theorem State.observe_work (s : State) (r : Reg) (v : Word) : (s.observe r v).work = s.work := rfl
@[simp] theorem State.observe_platform (s : State) (r : Reg) (v : Word) : (s.observe r v).platform = s.platform := rfl
@[simp] theorem State.observe_script (s : State) (r : Reg) (v : Word) : (s.observe r v).script = s.script := rfl
@[simp] theorem State.observe_answers (s : State) (r : Reg) (v : Word) : (s.observe r v).answers = s.answers := rfl
@[simp] theorem State.observe_slice (s : State) (r : Reg) (v : Word) : (s.observe r v).slice = s.slice := rfl
@[simp] theorem State.observe_dropped (s : State) (r : Reg) (v : Word) : (s.observe r v).dropped = s.dropped := rfl
@[simp] theorem State.observe_freeCount (s : State) (r : Reg) (v : Word) : (s.observe r v).freeCount = s.freeCount := rfl
@[simp] theorem State.observe_observed (s : State) (r : Reg) (v : Word) : (s.observe r v).observed = s.observed ++ [⟨r, bytesOfWord v⟩] := rfl
@[simp] theorem State.observe_failed (s : State) (r : Reg) (v : Word) : (s.observe r v).failed = s.failed := rfl

@[simp] theorem State.popped_regS (s : State) : (s.popped).regS = s.regS := rfl
@[simp] theorem State.popped_regInc (s : State) : (s.popped).regInc = s.regInc := rfl
@[simp] theorem State.popped_kind (s : State) : (s.popped).kind = s.kind := rfl
@[simp] theorem State.popped_valid (s : State) : (s.popped).valid = s.valid := rfl
@[simp] theorem State.popped_phase (s : State) : (s.popped).phase = s.phase := rfl
@[simp] theorem State.popped_code (s : State) : (s.popped).code = s.code := rfl
@[simp] theorem State.popped_arg0 (s : State) : (s.popped).arg0 = s.arg0 := rfl
@[simp] theorem State.popped_arg1 (s : State) : (s.popped).arg1 = s.arg1 := rfl
@[simp] theorem State.popped_count (s : State) : (s.popped).count = s.count := rfl
@[simp] theorem State.popped_oq (s : State) : (s.popped).oq = s.oq.tail := rfl
@[simp] theorem State.popped_lCmd (s : State) : (s.popped).lCmd = s.lCmd := rfl
@[simp] theorem State.popped_lA (s : State) : (s.popped).lA = s.lA := rfl
@[simp] theorem State.popped_lB (s : State) : (s.popped).lB = s.lB := rfl
@[simp] theorem State.popped_lN (s : State) : (s.popped).lN = s.lN := rfl
@[simp] theorem State.popped_work (s : State) : (s.popped).work = s.work := rfl
@[simp] theorem State.popped_platform (s : State) : (s.popped).platform = s.platform := rfl
@[simp] theorem State.popped_script (s : State) : (s.popped).script = s.script := rfl
@[simp] theorem State.popped_answers (s : State) : (s.popped).answers = s.answers := rfl
@[simp] theorem State.popped_slice (s : State) : (s.popped).slice = s.slice := rfl
@[simp] theorem State.popped_dropped (s : State) : (s.popped).dropped = s.dropped := rfl
@[simp] theorem State.popped_freeCount (s : State) : (s.popped).freeCount = s.freeCount := rfl
@[simp] theorem State.popped_observed (s : State) : (s.popped).observed = s.observed := rfl
@[simp] theorem State.popped_failed (s : State) : (s.popped).failed = s.failed := rfl

@[simp] theorem State.arbiter_regS (s : State) (rest : List Answer) (used : Nat) (b : Bool) : (s.arbiter rest used b).regS = s.regS := rfl
@[simp] theorem State.arbiter_regInc (s : State) (rest : List Answer) (used : Nat) (b : Bool) : (s.arbiter rest used b).regInc = s.regInc := rfl
@[simp] theorem State.arbiter_kind (s : State) (rest : List Answer) (used : Nat) (b : Bool) : (s.arbiter rest used b).kind = s.kind := rfl
@[simp] theorem State.arbiter_valid (s : State) (rest : List Answer) (used : Nat) (b : Bool) : (s.arbiter rest used b).valid = s.valid := rfl
@[simp] theorem State.arbiter_phase (s : State) (rest : List Answer) (used : Nat) (b : Bool) : (s.arbiter rest used b).phase = s.phase := rfl
@[simp] theorem State.arbiter_code (s : State) (rest : List Answer) (used : Nat) (b : Bool) : (s.arbiter rest used b).code = s.code := rfl
@[simp] theorem State.arbiter_arg0 (s : State) (rest : List Answer) (used : Nat) (b : Bool) : (s.arbiter rest used b).arg0 = s.arg0 := rfl
@[simp] theorem State.arbiter_arg1 (s : State) (rest : List Answer) (used : Nat) (b : Bool) : (s.arbiter rest used b).arg1 = s.arg1 := rfl
@[simp] theorem State.arbiter_count (s : State) (rest : List Answer) (used : Nat) (b : Bool) : (s.arbiter rest used b).count = s.count := rfl
@[simp] theorem State.arbiter_oq (s : State) (rest : List Answer) (used : Nat) (b : Bool) : (s.arbiter rest used b).oq = s.oq := rfl
@[simp] theorem State.arbiter_lCmd (s : State) (rest : List Answer) (used : Nat) (b : Bool) : (s.arbiter rest used b).lCmd = s.lCmd := rfl
@[simp] theorem State.arbiter_lA (s : State) (rest : List Answer) (used : Nat) (b : Bool) : (s.arbiter rest used b).lA = s.lA := rfl
@[simp] theorem State.arbiter_lB (s : State) (rest : List Answer) (used : Nat) (b : Bool) : (s.arbiter rest used b).lB = s.lB := rfl
@[simp] theorem State.arbiter_lN (s : State) (rest : List Answer) (used : Nat) (b : Bool) : (s.arbiter rest used b).lN = s.lN := rfl
@[simp] theorem State.arbiter_work (s : State) (rest : List Answer) (used : Nat) (b : Bool) : (s.arbiter rest used b).work = { s.work with attempts := used, inFlight := b } := rfl
@[simp] theorem State.arbiter_platform (s : State) (rest : List Answer) (used : Nat) (b : Bool) : (s.arbiter rest used b).platform = s.platform := rfl
@[simp] theorem State.arbiter_script (s : State) (rest : List Answer) (used : Nat) (b : Bool) : (s.arbiter rest used b).script = s.script := rfl
@[simp] theorem State.arbiter_answers (s : State) (rest : List Answer) (used : Nat) (b : Bool) : (s.arbiter rest used b).answers = rest := rfl
@[simp] theorem State.arbiter_slice (s : State) (rest : List Answer) (used : Nat) (b : Bool) : (s.arbiter rest used b).slice = s.slice := rfl
@[simp] theorem State.arbiter_dropped (s : State) (rest : List Answer) (used : Nat) (b : Bool) : (s.arbiter rest used b).dropped = s.dropped := rfl
@[simp] theorem State.arbiter_freeCount (s : State) (rest : List Answer) (used : Nat) (b : Bool) : (s.arbiter rest used b).freeCount = s.freeCount := rfl
@[simp] theorem State.arbiter_observed (s : State) (rest : List Answer) (used : Nat) (b : Bool) : (s.arbiter rest used b).observed = s.observed := rfl
@[simp] theorem State.arbiter_failed (s : State) (rest : List Answer) (used : Nat) (b : Bool) : (s.arbiter rest used b).failed = s.failed := rfl

@[simp] theorem State.keepFirst_regS (s : State) (v : Word) : (s.keepFirst v).regS = s.regS := rfl
@[simp] theorem State.keepFirst_regInc (s : State) (v : Word) : (s.keepFirst v).regInc = s.regInc := rfl
@[simp] theorem State.keepFirst_kind (s : State) (v : Word) : (s.keepFirst v).kind = s.kind := rfl
@[simp] theorem State.keepFirst_valid (s : State) (v : Word) : (s.keepFirst v).valid = s.valid := rfl
@[simp] theorem State.keepFirst_phase (s : State) (v : Word) : (s.keepFirst v).phase = s.phase := rfl
@[simp] theorem State.keepFirst_code (s : State) (v : Word) : (s.keepFirst v).code = s.code := rfl
@[simp] theorem State.keepFirst_arg0 (s : State) (v : Word) : (s.keepFirst v).arg0 = s.arg0 := rfl
@[simp] theorem State.keepFirst_arg1 (s : State) (v : Word) : (s.keepFirst v).arg1 = s.arg1 := rfl
@[simp] theorem State.keepFirst_count (s : State) (v : Word) : (s.keepFirst v).count = s.count := rfl
@[simp] theorem State.keepFirst_oq (s : State) (v : Word) : (s.keepFirst v).oq = s.oq := rfl
@[simp] theorem State.keepFirst_lCmd (s : State) (v : Word) : (s.keepFirst v).lCmd = s.lCmd := rfl
@[simp] theorem State.keepFirst_lA (s : State) (v : Word) : (s.keepFirst v).lA = s.lA := rfl
@[simp] theorem State.keepFirst_lB (s : State) (v : Word) : (s.keepFirst v).lB = s.lB := rfl
@[simp] theorem State.keepFirst_lN (s : State) (v : Word) : (s.keepFirst v).lN = s.lN := rfl
@[simp] theorem State.keepFirst_work (s : State) (v : Word) : (s.keepFirst v).work = { s.work with first := some v } := rfl
@[simp] theorem State.keepFirst_platform (s : State) (v : Word) : (s.keepFirst v).platform = s.platform := rfl
@[simp] theorem State.keepFirst_script (s : State) (v : Word) : (s.keepFirst v).script = s.script := rfl
@[simp] theorem State.keepFirst_answers (s : State) (v : Word) : (s.keepFirst v).answers = s.answers := rfl
@[simp] theorem State.keepFirst_slice (s : State) (v : Word) : (s.keepFirst v).slice = s.slice := rfl
@[simp] theorem State.keepFirst_dropped (s : State) (v : Word) : (s.keepFirst v).dropped = s.dropped := rfl
@[simp] theorem State.keepFirst_freeCount (s : State) (v : Word) : (s.keepFirst v).freeCount = s.freeCount := rfl
@[simp] theorem State.keepFirst_observed (s : State) (v : Word) : (s.keepFirst v).observed = s.observed := rfl
@[simp] theorem State.keepFirst_failed (s : State) (v : Word) : (s.keepFirst v).failed = s.failed := rfl

@[simp] theorem State.answered_regS (s : State) (a : Answer) : (s.answered a).regS = s.regS := rfl
@[simp] theorem State.answered_regInc (s : State) (a : Answer) : (s.answered a).regInc = s.regInc := rfl
@[simp] theorem State.answered_kind (s : State) (a : Answer) : (s.answered a).kind = s.kind := rfl
@[simp] theorem State.answered_valid (s : State) (a : Answer) : (s.answered a).valid = s.valid := rfl
@[simp] theorem State.answered_phase (s : State) (a : Answer) : (s.answered a).phase = s.phase := rfl
@[simp] theorem State.answered_code (s : State) (a : Answer) : (s.answered a).code = s.code := rfl
@[simp] theorem State.answered_arg0 (s : State) (a : Answer) : (s.answered a).arg0 = s.arg0 := rfl
@[simp] theorem State.answered_arg1 (s : State) (a : Answer) : (s.answered a).arg1 = s.arg1 := rfl
@[simp] theorem State.answered_count (s : State) (a : Answer) : (s.answered a).count = s.count := rfl
@[simp] theorem State.answered_oq (s : State) (a : Answer) : (s.answered a).oq = s.oq := rfl
@[simp] theorem State.answered_lCmd (s : State) (a : Answer) : (s.answered a).lCmd = s.lCmd := rfl
@[simp] theorem State.answered_lA (s : State) (a : Answer) : (s.answered a).lA = s.lA := rfl
@[simp] theorem State.answered_lB (s : State) (a : Answer) : (s.answered a).lB = s.lB := rfl
@[simp] theorem State.answered_lN (s : State) (a : Answer) : (s.answered a).lN = s.lN := rfl
@[simp] theorem State.answered_work (s : State) (a : Answer) : (s.answered a).work = s.work := rfl
@[simp] theorem State.answered_platform (s : State) (a : Answer) : (s.answered a).platform = s.platform := rfl
@[simp] theorem State.answered_script (s : State) (a : Answer) : (s.answered a).script = s.script := rfl
@[simp] theorem State.answered_answers (s : State) (a : Answer) : (s.answered a).answers = if s.dropped = 0 then s.answers ++ [a] else s.answers := rfl
@[simp] theorem State.answered_dropped (s : State) (a : Answer) : (s.answered a).dropped = s.dropped - 1 := rfl
@[simp] theorem State.answered_slice (s : State) (a : Answer) : (s.answered a).slice = s.slice := rfl
@[simp] theorem State.answered_freeCount (s : State) (a : Answer) : (s.answered a).freeCount = s.freeCount := rfl
@[simp] theorem State.answered_observed (s : State) (a : Answer) : (s.answered a).observed = s.observed := rfl
@[simp] theorem State.answered_failed (s : State) (a : Answer) : (s.answered a).failed = s.failed := rfl

@[simp] theorem State.unanswered_regS (s : State) : s.unanswered.regS = s.regS := rfl
@[simp] theorem State.unanswered_regInc (s : State) : s.unanswered.regInc = s.regInc := rfl
@[simp] theorem State.unanswered_kind (s : State) : s.unanswered.kind = s.kind := rfl
@[simp] theorem State.unanswered_valid (s : State) : s.unanswered.valid = s.valid := rfl
@[simp] theorem State.unanswered_phase (s : State) : s.unanswered.phase = s.phase := rfl
@[simp] theorem State.unanswered_code (s : State) : s.unanswered.code = s.code := rfl
@[simp] theorem State.unanswered_arg0 (s : State) : s.unanswered.arg0 = s.arg0 := rfl
@[simp] theorem State.unanswered_arg1 (s : State) : s.unanswered.arg1 = s.arg1 := rfl
@[simp] theorem State.unanswered_count (s : State) : s.unanswered.count = s.count := rfl
@[simp] theorem State.unanswered_oq (s : State) : s.unanswered.oq = s.oq := rfl
@[simp] theorem State.unanswered_lCmd (s : State) : s.unanswered.lCmd = s.lCmd := rfl
@[simp] theorem State.unanswered_lA (s : State) : s.unanswered.lA = s.lA := rfl
@[simp] theorem State.unanswered_lB (s : State) : s.unanswered.lB = s.lB := rfl
@[simp] theorem State.unanswered_lN (s : State) : s.unanswered.lN = s.lN := rfl
@[simp] theorem State.unanswered_work (s : State) : s.unanswered.work = s.work := rfl
@[simp] theorem State.unanswered_platform (s : State) : s.unanswered.platform = s.platform := rfl
@[simp] theorem State.unanswered_script (s : State) : s.unanswered.script = s.script := rfl
@[simp] theorem State.unanswered_answers (s : State) : s.unanswered.answers = s.answers := rfl
@[simp] theorem State.unanswered_dropped (s : State) : s.unanswered.dropped = s.dropped - 1 := rfl
@[simp] theorem State.unanswered_slice (s : State) : s.unanswered.slice = s.slice := rfl
@[simp] theorem State.unanswered_freeCount (s : State) : s.unanswered.freeCount = s.freeCount := rfl
@[simp] theorem State.unanswered_observed (s : State) : s.unanswered.observed = s.observed := rfl
@[simp] theorem State.unanswered_failed (s : State) : s.unanswered.failed = s.failed := rfl

end Sys2Proof.Machine
end

