-- ==== Sys2Proof/Laws/Engine.lean ====
section
/-! SUPPORT. What the sampling loop can do: one micro-operation, many of them, what they leave unchanged, and that
changes they do not read pass through them. -/

namespace Sys2Proof.Machine

variable {piece : Nat → Word → Word → Piece}

theorem sampleRun_idle (n : Nat) (s : State) (h : s.phase = .idle) : sampleRun piece n s = s := by
  cases n <;> simp [sampleRun, h]

theorem sampleRun_stalled (n : Nat) (s : State) (h : s.stalled = true) : sampleRun piece n s = s := by
  cases n <;> simp [sampleRun, h]

theorem sampleRun_step (n : Nat) (s : State) (h : s.phase = .run) (h' : s.stalled = false) :
    sampleRun piece (n + 1) s = sampleRun piece n (sampleTick piece s) := by simp [sampleRun, h, h']

theorem sampleRun_add (a b : Nat) (s : State) :
    sampleRun piece (a + b) s = sampleRun piece b (sampleRun piece a s) := by
  induction a generalizing s with
  | zero => simp [sampleRun]
  | succ a ih =>
    rw [Nat.succ_add]
    by_cases h : s.phase = .run ∧ s.stalled = false
    · rw [sampleRun_step _ _ h.1 h.2, sampleRun_step _ _ h.1 h.2, ih]
    · have rest : ∀ n, sampleRun piece (n + 1) s = s := fun n => by simp [sampleRun, h]
      rw [Nat.succ_eq_add_one, rest, rest]
      cases b with
      | zero => rfl
      | succ b => rw [rest]

/-- The induction over a sampling run, once. -/
theorem sampleRun_induct (P : State → Prop)
    (hP : ∀ s, P s → s.phase = .run → s.stalled = false → P (sampleTick piece s)) (n : Nat) (s : State) (h : P s) :
    P (sampleRun piece n s) := by
  induction n generalizing s with
  | zero => exact h
  | succ n ih =>
    unfold sampleRun
    split
    · rename_i hc; exact ih _ (hP s h hc.1 hc.2)
    · exact h

/-- All one micro-operation can be: an emit, a draw that finishes an element, a draw that does not, the completion. -/
theorem sampleTick_cases (s : State) (h : s.stalled = false) :
    (∃ v, s.work.pending = some v ∧ s.hasRoom = true ∧ sampleTick piece s = s.emit v) ∨
    (s.work.pending = none ∧ s.work.j < s.opCount ∧
      ∃ v, piece s.work.k s.work.acc s.drawWord = .word v ∧ sampleTick piece s = s.drawn.due v) ∨
    (s.work.pending = none ∧ s.work.j < s.opCount ∧
      ∃ k acc, piece s.work.k s.work.acc s.drawWord = .more k acc ∧ sampleTick piece s = s.drawn.carry k acc) ∨
    (s.work.pending = none ∧ ¬ s.work.j < s.opCount ∧ sampleTick piece s = s.succeed) := by
  unfold sampleTick
  cases hp : s.work.pending with
  | some v =>
    simp [State.stalled, hp] at h
    simp [h]
  | none =>
    by_cases hj : s.work.j < s.opCount
    · cases hd : piece s.work.k s.work.acc s.drawWord <;> simp [hj]
    · simp [hj]

/-- The second state differs from the first only where a sampling run may write. -/
def SamplingFrame (s t : State) : Prop :=
  t = { s with regS := t.regS, oq := t.oq, work := t.work, code := t.code, phase := t.phase }

theorem sampleTick_frame (s : State) : SamplingFrame s (sampleTick piece s) := by
  unfold sampleTick
  split
  · split <;> rfl
  · split
    · split <;> rfl
    · rfl

theorem SamplingFrame.trans {s t u : State} (h : SamplingFrame s t) (h' : SamplingFrame t u) : SamplingFrame s u := by
  rw [SamplingFrame] at *; rw [h', h]

theorem sampleRun_frame (n : Nat) (s : State) : SamplingFrame s (sampleRun piece n s) :=
  sampleRun_induct (P := SamplingFrame s) (fun t h _ _ => h.trans (sampleTick_frame t)) n s rfl

theorem sampleRun_appends (n : Nat) (s : State) : ∃ ws, (sampleRun piece n s).oq = s.oq ++ ws := by
  refine sampleRun_induct (P := fun t => ∃ ws, t.oq = s.oq ++ ws) ?_ n s ⟨[], by simp⟩
  rintro u ⟨ws, hu⟩ _ hst
  rcases sampleTick_cases (piece := piece) u hst with
    ⟨v, _, _, e⟩ | ⟨_, _, v, _, e⟩ | ⟨_, _, _, _, _, e⟩ | ⟨_, _, e⟩ <;> rw [e]
  · exact ⟨ws ++ [v], by simp [hu]⟩
  · exact ⟨ws, hu⟩
  · exact ⟨ws, hu⟩
  · exact ⟨ws, hu⟩

/-- A sampling run that ends the command ends it with SUCCESS. -/
theorem sampleRun_success (n : Nat) (s : State) (h : s.phase = .run) :
    (sampleRun piece n s).phase = .run ∨ (sampleRun piece n s).phase = .idle ∧ (sampleRun piece n s).code = .success := by
  refine sampleRun_induct (P := fun t => t.phase = .run ∨ t.phase = .idle ∧ t.code = .success) ?_ n s (Or.inl h)
  intro t _ hr hs
  rcases sampleTick_cases (piece := piece) t hs with
    ⟨v, _, _, e⟩ | ⟨_, _, v, _, e⟩ | ⟨_, _, _, _, _, e⟩ | ⟨_, _, e⟩ <;> rw [e] <;> simp [hr]

/-- A change that passes through one micro-operation passes through a run. -/
theorem sampleRun_comm (f : State → State) (hp : ∀ s, (f s).phase = s.phase) (hs : ∀ s, (f s).stalled = s.stalled)
    (ht : ∀ s, sampleTick piece (f s) = f (sampleTick piece s)) (n : Nat) (s : State) :
    sampleRun piece n (f s) = f (sampleRun piece n s) := by
  induction n generalizing s with
  | zero => rfl
  | succ n ih =>
    unfold sampleRun
    rw [hp, hs, ht, ih]
    split <;> rfl

/-- A change of state that a micro-operation does not read, and that its writes do not undo, passes through it. -/
theorem sampleTick_comm (f : State → State) (hw : ∀ s, (f s).work = s.work) (hr : ∀ s, (f s).hasRoom = s.hasRoom)
    (hn : ∀ s, (f s).opCount = s.opCount) (hd : ∀ s, (f s).drawWord = s.drawWord)
    (he : ∀ s v, (f s).emit v = f (s.emit v)) (hv : ∀ s v, (f s).drawn.due v = f (s.drawn.due v))
    (hc : ∀ s k a, (f s).drawn.carry k a = f (s.drawn.carry k a)) (hs : ∀ s, (f s).succeed = f s.succeed) (s : State) :
    sampleTick piece (f s) = f (sampleTick piece s) := by
  unfold sampleTick
  rw [hw, hr, hn, hd]
  split
  · split
    · exact he _ _
    · rfl
  · split
    · split
      · exact hv _ _
      · exact hc _ _ _
    · exact hs _

/-- Two uses of a draw that agree on the working values a run can reach make the same run. -/
theorem sampleRun_congr {p q : Nat → Word → Word → Piece} (P : Nat → Word → Prop)
    (hpq : ∀ k acc d, P k acc → p k acc d = q k acc d ∧ ∀ k' acc', q k acc d = .more k' acc' → P k' acc')
    (h0 : P 0 0) (n : Nat) (s : State) (h : P s.work.k s.work.acc) : sampleRun p n s = sampleRun q n s := by
  induction n generalizing s with
  | zero => rfl
  | succ n ih =>
    unfold sampleRun
    split
    · rename_i hc
      obtain ⟨a, b⟩ := hpq s.work.k s.work.acc s.drawWord h
      have e : sampleTick p s = sampleTick q s := by unfold sampleTick; rw [a]
      rw [e]
      apply ih
      rcases sampleTick_cases (piece := q) s hc.2 with
        ⟨v, _, _, e⟩ | ⟨_, _, v, _, e⟩ | ⟨_, _, k, acc, hm, e⟩ | ⟨_, _, e⟩ <;> rw [e]
      · exact h
      · exact h0
      · exact b _ _ hm
      · exact h
    · rfl

/-- A finished element costs two micro-operations: its last draw, and its emit when there is room. -/
theorem sampleRun_word {s : State} {v : Word} (m : Nat) (hp : s.phase = .run) (hn : s.work.pending = none)
    (hj : s.work.j < s.opCount) (hr : s.hasRoom = true) (hw : piece s.work.k s.work.acc s.drawWord = .word v) :
    sampleRun piece (m + 2) s = sampleRun piece m ((s.drawn.due v).emit v) := by
  rw [sampleRun_step _ _ hp (by simp [State.stalled, hn])]
  have e : sampleTick piece s = s.drawn.due v := by simp [sampleTick, hn, hj, hw]
  have hr' : (s.drawn.due v).hasRoom = true := hr
  have e' : sampleTick piece (s.drawn.due v) = (s.drawn.due v).emit v := by
    unfold sampleTick
    rw [hr']
    rfl
  rw [e, sampleRun_step _ (s.drawn.due v) hp (by simp [State.stalled, hr']), e']

/-- A draw that finishes no element costs one micro-operation. -/
theorem sampleRun_more {s : State} {k : Nat} {acc : Word} (m : Nat) (hp : s.phase = .run) (hn : s.work.pending = none)
    (hj : s.work.j < s.opCount) (hw : piece s.work.k s.work.acc s.drawWord = .more k acc) :
    sampleRun piece (m + 1) s = sampleRun piece m (s.drawn.carry k acc) := by
  rw [sampleRun_step _ _ hp (by simp [State.stalled, hn])]
  have e : sampleTick piece s = s.drawn.carry k acc := by simp [sampleTick, hn, hj, hw]
  rw [e]

/-- With all elements out, the next micro-operation completes the command. -/
theorem sampleRun_done {s : State} (m : Nat) (hp : s.phase = .run) (hn : s.work.pending = none)
    (hj : ¬ s.work.j < s.opCount) : sampleRun piece (m + 1) s = s.succeed := by
  rw [sampleRun_step _ _ hp (by simp [State.stalled, hn])]
  have e : sampleTick piece s = s.succeed := by simp [sampleTick, hn, hj]
  rw [e, sampleRun_idle _ _ rfl]

theorem hasRoom_of_roomFor {s : State} {n : Nat} (h : s.roomFor (n + 1)) : s.hasRoom = true := by
  unfold State.hasRoom
  cases hd : s.platform.outDepth with
  | none => rfl
  | some d => have := h d hd; simp; omega

end Sys2Proof.Machine
end

