-- ==== Sys2Proof/Laws/Units.lean ====
section
/-! SUPPORT. The shift-and-xor steps and the multiplications lose no word; counting bits of a word; what an acquisition
does with the answers it is given. -/

namespace Sys2Proof.Machine

/-! ### Words -/

theorem xorShiftRight_injective (n : Nat) (hn : 0 < n) : Function.Injective (xorShiftRight n) := by
  intro x y h
  have key : ∀ m i, 64 - i ≤ m → x.getLsbD i = y.getLsbD i := by
    intro m
    induction m with
    | zero => intro i hi; rw [BitVec.getLsbD_of_ge _ _ (by omega), BitVec.getLsbD_of_ge _ _ (by omega)]
    | succ m ih =>
      intro i hi
      have bit := congrArg (·.getLsbD i) h
      simp only [xorShiftRight, BitVec.getLsbD_xor, BitVec.getLsbD_ushiftRight] at bit
      by_cases h64 : 64 ≤ i
      · rw [BitVec.getLsbD_of_ge _ _ h64, BitVec.getLsbD_of_ge _ _ h64]
      · rw [ih (n + i) (by omega)] at bit
        simpa using bit
  exact BitVec.eq_of_getLsbD_eq fun i _ => key 64 i (by omega)

theorem xorShiftLeft_injective (n : Nat) (hn : 0 < n) : Function.Injective (xorShiftLeft n) := by
  intro x y h
  refine BitVec.eq_of_getLsbD_eq fun i => ?_
  induction i using Nat.strong_induction_on with
  | _ i ih =>
    intro hi
    have bit := congrArg (·.getLsbD i) h
    simp only [xorShiftLeft, BitVec.getLsbD_xor, BitVec.getLsbD_shiftLeft, hi, decide_true, Bool.true_and] at bit
    by_cases h' : i < n
    · simpa [h'] using bit
    · rw [ih (i - n) (by omega) (by omega)] at bit
      simpa [h'] using bit

/-- A multiplication by a word that has an inverse loses nothing. -/
theorem mul_injective_of_inverse (c d : Word) (h : d * c = 1) : Function.Injective (fun x : Word => c * x) := by
  intro x y e
  have e' : d * (c * x) = d * (c * y) := congrArg (d * ·) e
  rw [← BitVec.mul_assoc, ← BitVec.mul_assoc, h] at e'
  simpa using e'

/-! ### Counting bits -/

/-- Where counting upwards stops. -/
theorem takeWhile_range_spec (p : Nat → Bool) (n : Nat) :
    let m := ((List.range n).takeWhile p).length
    m ≤ n ∧ (∀ i < m, p i = true) ∧ (m < n → p m = false) := by
  intro m
  have hpre : (List.range n).takeWhile p <+: List.range n := List.takeWhile_prefix p
  have hle : m ≤ n := by simpa using hpre.length_le
  have hget : ∀ i (hi : i < m), ((List.range n).takeWhile p)[i] = i := by
    intro i hi
    rw [hpre.getElem hi]; simp
  refine ⟨hle, ?_, ?_⟩
  · intro i hi
    have h := List.mem_takeWhile_imp (List.getElem_mem (l := (List.range n).takeWhile p) hi)
    rwa [hget i hi] at h
  · intro hm
    by_contra hp
    have hp : p m = true := by simpa using hp
    have hsplit : List.range n = (List.range n).takeWhile p ++ (List.range n).dropWhile p :=
      List.takeWhile_append_dropWhile.symm
    have hd : (List.range n).dropWhile p ≠ [] := by
      intro e
      have h := congrArg List.length hsplit
      rw [e] at h; simp at h; omega
    have hh := List.head_dropWhile_not p (l := List.range n) hd
    have hm' : ((List.range n).dropWhile p).head hd = m := by
      have h1 : (List.range n)[m]'(by simpa using hm) = ((List.range n).dropWhile p).head hd := by
        rw [← List.getElem_zero (by simpa [List.length_pos_iff] using hd), List.getElem_of_eq hsplit,
          List.getElem_append_right (as := (List.range n).takeWhile p) (bs := (List.range n).dropWhile p) (i := m)
            (Nat.le_refl _) (h₂ := by rw [← hsplit]; simpa using hm)]
        congr 1; exact Nat.sub_self _
      rw [← h1]; simp
    rw [hm', hp] at hh; simp at hh

theorem ctz64_spec (v : Word) (h : v ≠ 0) :
    ctz64 v < 64 ∧ v.getLsbD (ctz64 v) = true ∧ ∀ i < ctz64 v, v.getLsbD i = false := by
  obtain ⟨h1, h2, h3⟩ := takeWhile_range_spec (fun i => !v.getLsbD i) 64
  change ctz64 v ≤ 64 at h1
  have below : ∀ i < ctz64 v, v.getLsbD i = false := fun i hi => by simpa using h2 i hi
  have lt : ctz64 v < 64 := by
    by_contra hc
    apply h
    apply BitVec.eq_of_getLsbD_eq; intro i hi
    rw [below i (by omega)]; simp
  refine ⟨lt, ?_, below⟩
  have h := h3 lt
  rwa [Bool.not_eq_false'] at h

theorem clz64_spec (v : Word) :
    clz64 v ≤ 64 ∧ (∀ i < clz64 v, v.getLsbD (63 - i) = false) ∧
      (v ≠ 0 → clz64 v < 64 ∧ v.getLsbD (63 - clz64 v) = true) := by
  obtain ⟨h1, h2, h3⟩ := takeWhile_range_spec (fun i => !v.getLsbD (63 - i)) 64
  change clz64 v ≤ 64 at h1
  have above : ∀ i < clz64 v, v.getLsbD (63 - i) = false := fun i hi => by simpa using h2 i hi
  refine ⟨h1, above, fun hv => ?_⟩
  have lt : clz64 v < 64 := by
    by_contra hc
    apply hv
    apply BitVec.eq_of_getLsbD_eq; intro i hi
    have h := above (63 - i) (by omega)
    rw [show 63 - (63 - i) = i by omega] at h
    rw [h]; simp
  refine ⟨lt, ?_⟩
  have h := h3 lt
  rwa [Bool.not_eq_false'] at h

theorem toNat_lt_two_pow_bitlen (v : Word) : v.toNat < 2 ^ bitlen v := by
  obtain ⟨h1, h2, _⟩ := clz64_spec v
  apply Nat.lt_pow_two_of_testBit
  intro i hi
  show v.getLsbD i = false
  unfold bitlen at hi
  by_cases hi' : 64 ≤ i
  · exact BitVec.getLsbD_of_ge _ _ hi'
  · have h := h2 (63 - i) (by omega)
    rwa [show 63 - (63 - i) = i by omega] at h

theorem two_pow_pred_bitlen_le (v : Word) (h : v ≠ 0) : 2 ^ (bitlen v - 1) ≤ v.toNat := by
  obtain ⟨a, b⟩ := (clz64_spec v).2.2 h
  rw [show bitlen v - 1 = 63 - clz64 v by unfold bitlen; omega]
  exact Nat.ge_two_pow_of_testBit b

theorem ones_toNat (k : Nat) (h : k ≤ 64) : (ones k).toNat = 2 ^ k - 1 := by
  have h64 : 2 ^ k ≤ 2 ^ 64 := Nat.pow_le_pow_right (by omega) h
  have := Nat.one_le_two_pow (n := k)
  rw [ones, BitVec.toNat_ofNat, Nat.mod_eq_of_lt (by omega)]

/-! ### Acquisitions -/

/-- An acquisition waits only when it has used every answer. -/
theorem acquire_waiting {zg : Bool} {left used : Nat} {as rest : List Answer}
    (h : acquire zg left as = (.waiting used, rest)) : rest = [] := by
  induction as generalizing left with
  | nil => cases left <;> simp [acquire] at h; simp [h]
  | cons a as ih =>
    cases left with
    | zero => simp [acquire] at h
    | succ left =>
      unfold acquire at h
      split at h
      · simp at h
      · exact ih h

/-- With the zero guard, the value acquired is not zero. -/
theorem acquire_value_ne_zero {left : Nat} {as rest : List Answer} {v : Word}
    (h : acquire true left as = (.value v, rest)) : v ≠ 0 := by
  induction as generalizing left with
  | nil => cases left <;> simp [acquire] at h
  | cons a as ih =>
    cases left with
    | zero => simp [acquire] at h
    | succ left =>
      unfold acquire at h
      split at h
      · rename_i ha
        simp at h; obtain ⟨rfl, rfl⟩ := h
        simp [Answer.accepted] at ha; exact ha.2
      · exact ih h

/-- Answers that are not accepted each cost an attempt and nothing else. -/
theorem acquire_skip (zg : Bool) (pre post : List Answer) (left : Nat) (h : ∀ x ∈ pre, x.accepted zg = false)
    (hl : pre.length ≤ left) : acquire zg left (pre ++ post) = acquire zg (left - pre.length) post := by
  induction pre generalizing left with
  | nil => simp
  | cons a pre ih =>
    cases left with
    | zero => simp at hl
    | succ left =>
      simp only [List.length_cons] at hl ⊢
      rw [List.cons_append, acquire, if_neg (by simp [h a (by simp)]),
        ih left (fun x hx => h x (by simp [hx])) (by omega)]
      congr 1; omega

end Sys2Proof.Machine
end

