-- ==== Sys2Proof/Laws/Commands.lean ====
section
/-! SUPPORT. Everything each command can do when it answers a next state, said once; later proofs cite these and unfold
no meaning. -/

namespace Sys2Proof.Machine

/-! ### The four sampling commands -/

def isSampling : Instr → Bool
  | .construct _ | .destroy => false
  | .next | .rand | .bias | .unid => true

/-- The use a sampling command makes of a draw. -/
def pieceOf (i : Instr) (s : State) : Nat → Word → Word → Piece :=
  match i with
  | .rand => randPiece s.lA (randRange s.lA s.lB)
  | .bias => biasPiece s.lA s.lB
  | .construct _ | .destroy | .next | .unid => rawPiece

/-- The operand check of a sampling command. -/
def operandsOk (i : Instr) (s : State) : Bool :=
  match i with
  | .rand => !decide (s.lB < s.lA)
  | .bias => biasCheck s.lA s.lB
  | .construct _ | .destroy | .next | .unid => true

theorem pieceOf_congr {s t : State} (i : Instr) (hA : t.lA = s.lA) (hB : t.lB = s.lB) : pieceOf i t = pieceOf i s := by
  cases i <;> simp [pieceOf, hA, hB]

theorem operandsOk_congr {s t : State} (i : Instr) (hA : t.lA = s.lA) (hB : t.lB = s.lB) :
    operandsOk i t = operandsOk i s := by
  cases i <;> simp [operandsOk, hA, hB]

theorem exec_sampling {i : Instr} (h : isSampling i = true) (s : State) : exec i s = .next
    (if s.valid then
      if operandsOk i s then sampleRun (pieceOf i s) s.slice s else s.raise .argumentOutOfBounds
     else s.raise .invalidInstance) := by
  cases i
  case construct | destroy => simp [isSampling] at h
  all_goals
    simp only [exec, execNext, execUnid, execRand, execBias, State.opMin, State.opMax, State.opNumerator,
      State.opExponent, operandsOk, pieceOf]
    split_ifs <;> simp_all
  simp [BitVec.not_lt.2 ‹s.lA ≤ s.lB›]

theorem sampling_cases {i : Instr} (hi : isSampling i = true) {s t : State} (h : exec i s = .next t) :
    (s.valid = true ∧ operandsOk i s = true ∧ t = sampleRun (pieceOf i s) s.slice s) ∨
    (s.valid = true ∧ operandsOk i s = false ∧ t = s.raise .argumentOutOfBounds) ∨
    (s.valid = false ∧ t = s.raise .invalidInstance) := by
  rw [exec_sampling hi] at h
  have h := (Host.Outcome.next.inj h).symm
  split_ifs at h <;> simp_all

theorem not_sampling {i : Instr} (h : ¬ isSampling i = true) : i = .destroy ∨ ∃ k, i = .construct k := by
  cases i <;> simp [isSampling] at *

/-! ### DESTROY and CONSTRUCT -/

theorem destroy_cases {s t : State} (h : exec .destroy s = .next t) :
    (s.valid = true ∧ t = s.discard.succeed) ∨ (s.valid = false ∧ t = s.raise .invalidInstance) := by
  simp only [exec, execDestroy] at h
  split at h <;> have h := (Host.Outcome.next.inj h).symm <;> simp_all

/-- The second state differs from the first only in the entropy source's answers and the working values. -/
def ArbiterFrame (s t : State) : Prop := t = { s with answers := t.answers, work := t.work }

theorem ArbiterFrame.arbiter {s t : State} (h : ArbiterFrame s t) (rest : List Answer) (used : Nat)
    (b : Bool) : ArbiterFrame s (t.arbiter rest used b) := by
  rw [ArbiterFrame] at *; rw [h]; rfl

theorem ArbiterFrame.keepFirst {s t : State} (h : ArbiterFrame s t) (v : Word) : ArbiterFrame s (t.keepFirst v) := by
  rw [ArbiterFrame] at *; rw [h]; rfl

/-- The three ways an acquisition inside a command can go. -/
theorem withAcquired_cases (zg : Bool) (done : Word → State → State) (s : State) :
    (∃ v rest, withAcquired zg done s = done v (s.arbiter rest 0 false) ∧
      acquire zg (retryLimit - s.work.attempts) s.answers = (.value v, rest)) ∨
    (∃ rest, withAcquired zg done s = (s.arbiter rest 0 false).raise .hardwareEntropyExhausted ∧
      acquire zg (retryLimit - s.work.attempts) s.answers = (.exhausted, rest)) ∨
    (∃ used, withAcquired zg done s = s.arbiter [] used true ∧
      acquire zg (retryLimit - s.work.attempts) s.answers = (.waiting used, [])) := by
  unfold withAcquired
  split
  · exact Or.inl ⟨_, _, rfl, by assumption⟩
  · exact Or.inr (Or.inl ⟨_, rfl, by assumption⟩)
  · rename_i h
    have e := acquire_waiting h; subst e
    exact Or.inr (Or.inr ⟨_, rfl, h⟩)

theorem pcgSeedSecond_cases {s u t : State} {v : Word} (hu : ArbiterFrame s u) (h : t = pcgSeedSecond v u) :
    (∃ v inc u, ArbiterFrame s u ∧ t = (u.installPcg v inc).succeed) ∨
    (∃ u, ArbiterFrame s u ∧ t = u.raise .hardwareEntropyExhausted) ∨
    (ArbiterFrame s t ∧ t.answers = [] ∧ t.work.inFlight = true) := by
  rcases withAcquired_cases false (fun v' s' => (s'.installPcg v v').succeed) u with
    ⟨a, b, c, _⟩ | ⟨b, c, _⟩ | ⟨used, c, d⟩
  · exact Or.inl ⟨_, _, _, hu.arbiter _ _ _, h.trans c⟩
  · exact Or.inr (Or.inl ⟨_, hu.arbiter _ _ _, h.trans c⟩)
  · exact Or.inr (Or.inr ⟨by rw [h.trans c]; exact hu.arbiter _ _ _, by rw [h.trans c]; exact ⟨rfl, rfl⟩⟩)

theorem pcgSeedHw_cases {s t : State} (h : t = pcgSeedHw s) :
    (∃ v inc u, ArbiterFrame s u ∧ t = (u.installPcg v inc).succeed) ∨
    (∃ u, ArbiterFrame s u ∧ t = u.raise .hardwareEntropyExhausted) ∨
    (ArbiterFrame s t ∧ t.answers = [] ∧ t.work.inFlight = true) := by
  have hs : ArbiterFrame s s := rfl
  unfold pcgSeedHw at h
  split at h
  · exact pcgSeedSecond_cases hs h
  · rcases withAcquired_cases false (fun v s' => pcgSeedSecond v (s'.keepFirst v)) s with
      ⟨a, b, c, _⟩ | ⟨b, c, _⟩ | ⟨used, c, d⟩
    · exact pcgSeedSecond_cases ((hs.arbiter _ _ _).keepFirst _) (h.trans c)
    · exact Or.inr (Or.inl ⟨_, hs.arbiter _ _ _, h.trans c⟩)
    · exact Or.inr (Or.inr ⟨by rw [h.trans c]; exact hs.arbiter _ _ _, by rw [h.trans c]; exact ⟨rfl, rfl⟩⟩)

/-- Everything CONSTRUCT can do: the two checks, an instance of either kind, exhaustion, and waiting for entropy. -/
theorem construct_cases {k : BitVec 8} {s t : State} (h : exec (.construct k) s = .next t) :
    (s.valid = true ∧ t = s.raise .invalidInstance) ∨
    (s.valid = false ∧ k ≠ 0x00#8 ∧ k ≠ 0x01#8 ∧ t = s.raise .argumentOutOfBounds) ∨
    (s.valid = false ∧ ∃ v inc u, ArbiterFrame s u ∧ t = (u.installPcg v inc).succeed) ∨
    (s.valid = false ∧ ∃ v u, (v ≠ 0 ∨ (s.lA ≠ 0 ∧ v = mix64 s.lA)) ∧ ArbiterFrame s u ∧
      t = (u.installXs v).succeed) ∨
    (s.valid = false ∧ s.lA = 0 ∧ ∃ u, ArbiterFrame s u ∧ t = u.raise .hardwareEntropyExhausted) ∨
    (s.valid = false ∧ s.lA = 0 ∧ ArbiterFrame s t ∧ t.answers = [] ∧ t.work.inFlight = true) := by
  simp only [exec, execConstruct] at h
  by_cases hv : s.valid = true
  · rw [if_pos hv] at h
    exact Or.inl ⟨hv, (Host.Outcome.next.inj h).symm⟩
  rw [if_neg hv] at h
  have hv : s.valid = false := by simpa using hv
  have hw : ArbiterFrame s s := rfl
  refine Or.inr ?_
  by_cases h0 : k = 0x00#8
  · rw [show kindOfBits k = some .pcg64 by simp [kindOfBits, h0]] at h
    have h := (Host.Outcome.next.inj h).symm
    refine Or.inr ?_
    by_cases hs : s.opSeed ≠ 0
    · rw [if_pos hs] at h
      exact Or.inl ⟨hv, _, _, s, hw, h⟩
    rw [if_neg hs] at h
    have hs : s.lA = 0 := by simpa [State.opSeed] using hs
    rcases pcgSeedHw_cases h with f | f | f
    · exact Or.inl ⟨hv, f⟩
    · exact Or.inr (Or.inr (Or.inl ⟨hv, hs, f⟩))
    · exact Or.inr (Or.inr (Or.inr ⟨hv, hs, f⟩))
  by_cases h1 : k = 0x01#8
  · rw [show kindOfBits k = some .xs64 by simp [kindOfBits, h1]] at h
    have h := (Host.Outcome.next.inj h).symm
    refine Or.inr (Or.inr ?_)
    by_cases hs : s.opSeed ≠ 0
    · rw [if_pos hs] at h
      exact Or.inl ⟨hv, _, s, Or.inr ⟨hs, rfl⟩, hw, h⟩
    rw [if_neg hs] at h
    have hs : s.lA = 0 := by simpa [State.opSeed] using hs
    rcases withAcquired_cases true (fun v s' => (s'.installXs v).succeed) s with
      ⟨a, b, c, d⟩ | ⟨b, c, _⟩ | ⟨u, c, d⟩
    · exact Or.inl ⟨hv, _, _, Or.inl (acquire_value_ne_zero d), hw.arbiter _ _ _, h.trans c⟩
    · exact Or.inr (Or.inl ⟨hv, hs, _, hw.arbiter _ _ _, h.trans c⟩)
    · exact Or.inr (Or.inr ⟨hv, hs, by rw [h.trans c]; exact hw.arbiter _ _ _, by rw [h.trans c]; exact ⟨rfl, rfl⟩⟩)
  · rw [show kindOfBits k = none by simp [kindOfBits, h0, h1]] at h
    exact Or.inl ⟨hv, h0, h1, (Host.Outcome.next.inj h).symm⟩

/-- A change of state that CONSTRUCT does not read, and that its writes do not undo, passes through it. -/
theorem construct_comm (f : State → State) (hw : ∀ s, (f s).work = s.work) (ha : ∀ s, (f s).answers = s.answers)
    (hv : ∀ s, (f s).valid = s.valid) (hA : ∀ s, (f s).lA = s.lA)
    (hb : ∀ s rest u b, (f s).arbiter rest u b = f (s.arbiter rest u b)) (hr : ∀ s c, (f s).raise c = f (s.raise c))
    (hk : ∀ s v, (f s).keepFirst v = f (s.keepFirst v)) (hx : ∀ s v, (f s).installXs v = f (s.installXs v))
    (hp : ∀ s v w, (f s).installPcg v w = f (s.installPcg v w)) (hs : ∀ s, (f s).succeed = f s.succeed)
    (k : BitVec 8) {s t : State} (h : exec (.construct k) s = .next t) :
    exec (.construct k) (f s) = .next (f t) := by
  have acq : ∀ (zg : Bool) (done : Word → State → State), (∀ v s, done v (f s) = f (done v s)) →
      ∀ s, withAcquired zg done (f s) = f (withAcquired zg done s) := by
    intro zg done hd s
    unfold withAcquired
    rw [hw, ha]
    split <;> simp only [hb, hd, hr]
  have second : ∀ v s, pcgSeedSecond v (f s) = f (pcgSeedSecond v s) := fun v s =>
    acq false _ (fun v' s => by rw [hp, hs]) s
  have pcgHw : ∀ s, pcgSeedHw (f s) = f (pcgSeedHw s) := by
    intro s
    unfold pcgSeedHw
    rw [hw]
    split
    · exact second _ _
    · exact acq false _ (fun v s => by rw [hk, second]) s
  have xsHw : ∀ s, xsSeedHw (f s) = f (xsSeedHw s) := fun s => acq true _ (fun v s => by rw [hx, hs]) s
  have pcgDet : ∀ s, pcgSeedDet (f s) = f (pcgSeedDet s) := by
    intro s; simp only [pcgSeedDet, State.opSeed, hA, hp, hs]
  have xsDet : ∀ s, xsSeedDet (f s) = f (xsSeedDet s) := by
    intro s; simp only [xsSeedDet, State.opSeed, hA, hx, hs]
  simp only [exec, execConstruct, State.opSeed, hv, hA, hr, pcgHw, xsHw, pcgDet, xsDet] at h ⊢
  split_ifs at h ⊢ <;> (try split at h) <;> simp_all

end Sys2Proof.Machine
end

