-- ==== Sys2Proof/Laws/Backpressure.lean ====
section
/-! SUPPORT. A round of `popRounds`, and one micro-operation seen with the words already read put back before OQ. -/

namespace Sys2Proof.Machine

theorem popRounds_idle {i : Instr} {n p : Nat} {rounds : List (Nat × Nat)} {s : State} {read : List Word}
    (h : s.phase = .idle) : popRounds i ((n, p) :: rounds) s read =
      popRounds i rounds { s with oq := s.oq.drop p } (read ++ s.oq.take p) := by
  rw [popRounds, if_neg (by rw [h]; simp)]

theorem popRounds_run {i : Instr} {n p : Nat} {rounds : List (Nat × Nat)} {s t : State} {read : List Word}
    (h : s.phase = .run) (he : exec i { s with slice := n } = .next t) : popRounds i ((n, p) :: rounds) s read =
      popRounds i rounds { t with oq := t.oq.drop p } (read ++ t.oq.take p) := by
  rw [popRounds, if_pos h, he]

/-- The block with an unbounded queue that still holds the words read. -/
def State.unread (read : List Word) (n : Nat) (s : State) : State := { s.unbounded n with oq := read ++ s.oq }

/-- Popping moves words from OQ to the words read. -/
theorem State.unread_pop (read : List Word) (p n : Nat) (s : State) :
    State.unread (read ++ s.oq.take p) n { s with oq := s.oq.drop p } = s.unread read n := by
  simp only [State.unread, State.unbounded, List.append_assoc, List.take_append_drop]

theorem State.unread_not_stalled (read : List Word) (n : Nat) (s : State) : (s.unread read n).stalled = false := by
  simp [State.stalled, State.hasRoom, State.unread, State.unbounded]

/-- A micro-operation that does not wait is the same one on the unbounded queue. -/
theorem sampleTick_unread (piece : Nat → Word → Word → Piece) (read : List Word) (n : Nat) {s : State}
    (h : s.stalled = false) : sampleTick piece (s.unread read n) = (sampleTick piece s).unread read n := by
  have hr : (s.unread read n).hasRoom = true := rfl
  rcases sampleTick_cases (piece := piece) s h with ⟨v, a, b, e⟩ | ⟨a, b, v, c, e⟩ | ⟨a, b, k, acc, c, e⟩ | ⟨a, b, e⟩ <;>
    rw [e]
  · have a' : (s.unread read n).work.pending = some v := a
    rw [sampleTick, a']
    simp only [hr, if_true]
    simp only [State.unread, State.unbounded, State.emit, List.append_assoc]
  all_goals
    have a' : (s.unread read n).work.pending = none := a
    rw [sampleTick, a']; simp only
  · rw [if_pos (show (s.unread read n).work.j < (s.unread read n).opCount from b), show piece (s.unread read n).work.k
      (s.unread read n).work.acc (s.unread read n).drawWord = .word v from c]; rfl
  · rw [if_pos (show (s.unread read n).work.j < (s.unread read n).opCount from b), show piece (s.unread read n).work.k
      (s.unread read n).work.acc (s.unread read n).drawWord = .more k acc from c]; rfl
  · rw [if_neg (show ¬ (s.unread read n).work.j < (s.unread read n).opCount from b)]; rfl

end Sys2Proof.Machine
end

