-- ==== Sys2Proof/Laws/PerInstr.lean ====
section
/-! SUPPORT. A statement about every command as syntax: its word, under the mask of its row of the opcode map, is the
row's match value (30_encoding.md R72). -/

namespace Sys2Proof.Laws.EncodesItsRow

def Statement (i : Instr) : Prop := encode i &&& rowMask i = rowMatch i

theorem construct (kind : BitVec 8) : Statement (.construct kind) := by
  unfold Statement encode
  apply BitVec.eq_of_getLsbD_eq
  intro j hj
  simp only [rowMask, rowMatch, kindFieldOf, opcodeOf, BitVec.getLsbD_and, BitVec.getLsbD_or, BitVec.getLsbD_shiftLeft,
    BitVec.getLsbD_setWidth]
  interval_cases j <;> simp

theorem destroy : Statement .destroy := by unfold Statement; decide

theorem next : Statement .next := by unfold Statement; decide

theorem rand : Statement .rand := by unfold Statement; decide

theorem bias : Statement .bias := by unfold Statement; decide

theorem unid : Statement .unid := by unfold Statement; decide

end Sys2Proof.Laws.EncodesItsRow
end

