-- ==== Sys2Proof/Laws/Step.lean ====
section
/-! SUPPORT. Byte lanes and the register window, what a host access can do, and everything a step can be, said once. -/

namespace Sys2Proof.Machine

@[simp] theorem bytesOfWord_length (v : Word) : (bytesOfWord v).length = 8 := by simp [bytesOfWord]

theorem regAt_regAddr (base : Nat) (r : Reg) : regAt base (regAddr base r) 8 = some r := by
  cases r <;> simp [regAt, regAddr, regIndex, inWindow, regAtIndex]

theorem regAt_some {base addr width : Nat} {r : Reg} (h : regAt base addr width = some r) :
    width = 8 ∧ addr = regAddr base r := by
  unfold regAt at h
  split_ifs at h with hc
  simp only [inWindow, Bool.and_eq_true, decide_eq_true_eq] at hc
  obtain ⟨⟨h1, h2⟩, h3, h4⟩ := hc
  refine ⟨h3, ?_⟩
  have hlt : (addr - base) / 8 < 8 := by omega
  generalize hq : (addr - base) / 8 = q at *
  have ha : addr = base + 8 * q := by omega
  interval_cases q <;> simp [regAtIndex] at h <;> subst h <;> simpa [regAddr, regIndex] using ha

/-- A host read that is answered observes a word, and at DOUT pops it; nothing else. -/
theorem hostRead_cases {addr width : Nat} {s t : State} (h : hostRead addr width s = .next t) :
    (∃ r v, t = s.observe r v) ∨ (∃ w ws, s.oq = w :: ws ∧ t = s.popped.observe .dout w) := by
  unfold hostRead at h
  split at h
  · rename_i r hr
    simp only [memRead, hr] at h
    split at h
    · rename_i v s' hm
      have h := (Host.Outcome.next.inj h).symm; subst h
      cases r <;> simp [readReg] at hm
      case dout =>
        split at hm
        · simp at hm
        · simp at hm; obtain ⟨rfl, rfl⟩ := hm
          exact Or.inr ⟨_, _, by assumption, rfl⟩
      all_goals obtain ⟨rfl, rfl⟩ := hm; exact Or.inl ⟨_, _, rfl⟩
    · simp at h
  · split at h <;> simp at h

/-- A host write that is answered finds PHASE = IDLE, and starts a command or writes an operand register. -/
theorem hostWrite_cases {addr : Nat} {bytes : List Byte} {s t : State} (h : hostWrite addr bytes s = .next t) :
    s.phase = .idle ∧
      ((∃ v, t = s.accept v) ∨ t = { s with arg0 := t.arg0, arg1 := t.arg1, count := t.count }) := by
  unfold hostWrite at h
  cases hw : writeTarget s.platform.base addr bytes.length with
  | none => rw [hw] at h; simp only at h; split at h <;> simp at h
  | some r =>
    rw [hw] at h; simp only at h
    cases hp : s.phase with
    | run => rw [hp] at h; simp at h
    | idle =>
      rw [hp] at h
      have h := (Host.Outcome.next.inj h).symm; subst h
      refine ⟨rfl, ?_⟩
      cases r
      · exact Or.inl ⟨_, rfl⟩
      all_goals (right; rw [← hp]; rfl)

theorem engineMove_cases {run : Instr → State → Host.Outcome State Fault Refusal} {s t : State}
    (h : engineMove run s = .next t) :
    (s.phase = .idle ∧ t = s) ∨
    (s.phase = .run ∧ (∃ e, decode s.lCmd = .error e) ∧ t = s.raise .illegalCommand) ∨
    (s.phase = .run ∧ ∃ i, decode s.lCmd = .ok i ∧ run i s = .next t) := by
  unfold engineMove at h
  cases hp : s.phase with
  | idle => rw [hp] at h; exact Or.inl ⟨rfl, (Host.Outcome.next.inj h).symm⟩
  | run =>
    rw [hp] at h; simp only at h
    cases hd : decode s.lCmd with
    | error e => rw [hd] at h; exact Or.inr (Or.inl ⟨rfl, ⟨e, rfl⟩, (Host.Outcome.next.inj h).symm⟩)
    | ok i => rw [hd] at h; exact Or.inr (Or.inr ⟨rfl, i, rfl, h⟩)

/-- Everything a step can be: the engine, a host read or write, the end of a WAIT, word from the entropy source, or
RESET; each from the present state but for what the script does to itself. -/
theorem step_cases {s t : State} (h : step s = .next t) :
    ∃ script slice, let u : State := { s with script := script, slice := slice }
      engineMove exec u = .next t ∨
      (∃ addr width, hostRead addr width u = .next t) ∨
      (∃ addr bytes, hostWrite addr bytes u = .next t) ∨
      (∃ v, t = u.observe .status v) ∨
      (∃ answers dropped, t = { u with answers := answers, dropped := dropped }) ∨
      (∃ rest, s.script = .reset :: rest ∧ t = u.resetBlock) := by
  unfold step stepWith at h
  cases hs : s.script with
  | nil => rw [hs] at h; exact ⟨s.script, s.slice, Or.inl h⟩
  | cons e rest =>
    rw [hs] at h
    cases e with
    | read a w => exact ⟨rest, s.slice, Or.inr (Or.inl ⟨_, _, h⟩)⟩
    | write a b => exact ⟨rest, s.slice, Or.inr (Or.inr (Or.inl ⟨_, _, h⟩))⟩
    | wait p =>
      simp only [waitMove] at h
      split at h
      · exact ⟨rest, s.slice, Or.inr (Or.inr (Or.inr (Or.inl ⟨_, (Host.Outcome.next.inj h).symm⟩)))⟩
      · split at h
        · exact ⟨s.script, s.slice, Or.inr (Or.inl ⟨_, _, h⟩)⟩
        · exact ⟨s.script, s.slice, Or.inl h⟩
    | engine n => exact ⟨rest, n, Or.inl h⟩
    | entropy a =>
      exact ⟨rest, s.slice, Or.inr (Or.inr (Or.inr (Or.inr (Or.inl ⟨_, _, (Host.Outcome.next.inj h).symm⟩))))⟩
    | noAnswer =>
      exact ⟨rest, s.slice, Or.inr (Or.inr (Or.inr (Or.inr (Or.inl ⟨_, _, (Host.Outcome.next.inj h).symm⟩))))⟩
    | reset =>
      exact ⟨rest, s.slice, Or.inr (Or.inr (Or.inr (Or.inr (Or.inr ⟨_, rfl, (Host.Outcome.next.inj h).symm⟩))))⟩

/-- The induction over the movers, once: a relation that every mover but RESET keeps holds of every step but a reset. -/
theorem step_induct (P : State → State → Prop)
    (script : ∀ s t sc sl, P { s with script := sc, slice := sl } t → P s t)
    (rests : ∀ s, P s s)
    (observes : ∀ s r v, P s (s.observe r v))
    (pops : ∀ s w ws, s.oq = w :: ws → P s (s.popped.observe .dout w))
    (accepts : ∀ s v, s.phase = .idle → P s (s.accept v))
    (operands : ∀ s a b c, P s { s with arg0 := a, arg1 := b, count := c })
    (answers : ∀ s as d, P s { s with answers := as, dropped := d })
    (illegal : ∀ s, s.phase = .run → P s (s.raise .illegalCommand))
    (commands : ∀ s t i, s.phase = .run → decode s.lCmd = .ok i → exec i s = .next t → P s t)
    {s t : State} (h : step s = .next t) :
    (∃ rest sc sl, s.script = .reset :: rest ∧ t = State.resetBlock { s with script := sc, slice := sl }) ∨ P s t := by
  obtain ⟨sc, sl, h⟩ := step_cases h
  simp only at h
  rcases h with h | ⟨a, w, h⟩ | ⟨a, b, h⟩ | ⟨v, h⟩ | ⟨as, d, h⟩ | ⟨rest, hr, h⟩
  · right; apply script _ _ sc sl
    rcases engineMove_cases h with ⟨_, rfl⟩ | ⟨hp, _, rfl⟩ | ⟨hp, i, hi, he⟩
    · exact rests _
    · exact illegal _ hp
    · exact commands _ _ _ hp hi he
  · right; apply script _ _ sc sl
    rcases hostRead_cases h with ⟨r, v, rfl⟩ | ⟨w, ws, ho, rfl⟩
    · exact observes _ _ _
    · exact pops _ _ _ ho
  · right; apply script _ _ sc sl
    obtain ⟨hp, ⟨v, rfl⟩ | h⟩ := hostWrite_cases h
    · exact accepts _ _ hp
    · rw [h]; exact operands _ _ _ _
  · right; apply script _ _ sc sl
    rw [h]; exact observes _ _ _
  · right; apply script _ _ sc sl
    rw [h]; exact answers _ _ _
  · exact Or.inl ⟨rest, sc, sl, hr, h⟩

end Sys2Proof.Machine
end

