-- ==== Sys2Proof/Tests/Slice0.lean ====
section
/-! SUPPORT. The model's own tests: the checks of WellFormed, decoded words, the spec's vectors (95_test_vectors.md), and a
witness for the hypotheses of every statement that has any. -/

open Sys2Proof Sys2Proof.Machine

namespace Sys2Proof.Tests

/-- The outcome is a next state that the test accepts. -/
def nextWith (o : Host.Outcome State Fault Refusal) (p : State → Bool) : Bool :=
  match o with
  | .next t => p t
  | .fault _ => false
  | .refused _ => false

theorem nextWith_iff (o : Host.Outcome State Fault Refusal) (p : State → Bool) :
    nextWith o p = true ↔ ∃ t, o = .next t ∧ p t = true := by
  cases o <;> simp [nextWith]

/-- A constructed PCG64 block at rest, seed 42 (95_test_vectors.md section 2.3). -/
def pcg42 : State :=
  { State.reset with regS := 0xA759EA27D4727622#64, regInc := 0x97EA87F7E45C00A5#64, valid := true }

/-- A constructed XS64 block at rest, seed 1 (section 2.4). -/
def xs1 : State := { State.reset with regS := 0x5692161D100B05E5#64, kind := .xs64, valid := true }

/-- The host has written the operand registers and then the command word. -/
def State.given (s : State) (w a b n : Word) : State := State.accept w { s with arg0 := a, arg1 := b, count := n }

/-! ### WellFormed: each check refuses an ill-formed term -/

theorem test_line_kind_too_large : Line.wellFormed (.construct 256 1) = false := by decide
theorem test_line_seed_too_large : Line.wellFormed (.construct 0 (2 ^ 64)) = false := by decide
theorem test_line_count_too_large : Line.wellFormed (.next (2 ^ 64)) = false := by decide
theorem test_line_max_too_large : Line.wellFormed (.rand 1 0 (2 ^ 64)) = false := by decide
theorem test_line_exponent_too_large : Line.wellFormed (.bias 1 1 (2 ^ 64)) = false := by decide
theorem test_line_unid_too_large : Line.wellFormed (.unid (2 ^ 64)) = false := by decide
theorem test_line_good : Line.wellFormed (.rand (2 ^ 64 - 1) 0 (2 ^ 64 - 1)) = true := by decide
theorem test_platform_unaligned : Platform.wellFormed ⟨32, none⟩ = false := by decide
theorem test_platform_no_queue : Platform.wellFormed ⟨64, some 0⟩ = false := by decide
theorem test_platform_good : Platform.wellFormed ⟨64, some 1⟩ = true := by decide

/-! ### Decode: words written out from 30_encoding.md (R70, R72), and section 2.9 of the vectors -/

theorem test_decode_construct_pcg : decode 0x0000000000000001#64 = .ok (.construct 0x00#8) := by decide
theorem test_decode_construct_xs : decode 0x0000000000000101#64 = .ok (.construct 0x01#8) := by decide
theorem test_decode_destroy : decode 0x0000000000000002#64 = .ok .destroy := by decide
theorem test_decode_next : decode 0x0000000000000010#64 = .ok .next := by decide
theorem test_decode_rand : decode 0x0000000000000011#64 = .ok .rand := by decide
theorem test_decode_bias : decode 0x0000000000000012#64 = .ok .bias := by decide
theorem test_decode_unid : decode 0x0000000000000013#64 = .ok .unid := by decide
theorem test_decode_between_groups : decode 0x0000000000000003#64 = .error .unknownOpcode := by decide
theorem test_decode_kind_in_next : decode 0x0000000000000110#64 = .error .kindNotZero := by decide
theorem test_decode_bit_63 : decode 0x8000000000000001#64 = .error .reservedBits := by decide
theorem test_decode_table_word : decodeTableWord 64 0x0101 = some (.construct 0x01#8) := by decide
theorem test_decode_too_few_bytes : (decodeBytes [0x10#8, 0#8]).isNone = true := by decide

/-! ### One step per test -/

/-- Section 2.9 row 1. -/
theorem test_construct_pcg : nextWith (step (State.given State.reset 0x01#64 42 0 0)) (fun t =>
    decide (t.regS = 0xA759EA27D4727622#64 ∧ t.regInc = 0x97EA87F7E45C00A5#64 ∧ statusWord t = 0x200#64)) = true := by
  decide

/-- Section 2.2 row E7: both acquisitions succeed on their tenth attempt. -/
theorem test_construct_entropy : nextWith
    (step { State.given State.reset 0x01#64 0 0 0 with
      answers := List.replicate 9 ⟨false, 1⟩ ++ [⟨true, 0xFFFFFFFFFFFFFFFF#64⟩] ++ List.replicate 9 ⟨false, 2⟩ ++
        [⟨true, 0⟩] })
    (fun t => decide (t.regS = 0xFFFFFFFFFFFFFFFF#64 ∧ t.regInc = 1 ∧ t.code = .success ∧ t.answers = [])) = true := by
  decide

/-- Section 2.9, DESTROY on a constructed and on a fresh block. -/
theorem test_destroy : nextWith (step (State.given xs1 0x02#64 0 0 0)) (fun t => decide (statusWord t = 0)) = true := by
  decide
theorem test_destroy_nothing :
    nextWith (step (State.given State.reset 0x02#64 0 0 0)) (fun t => decide (statusWord t = 4)) = true := by decide

/-- Section 2.5 row 1. -/
theorem test_next : nextWith (step (State.given pcg42 0x10#64 0 0 3)) (fun t =>
    decide (t.oq = [0xC2D85BB11DF40D83#64, 0x2CEC8217F0AD5B0D#64, 0xD2658B16977D2337#64] ∧
      t.regS = 0x192C348679246E5D#64 ∧ statusWord t = 0x600#64)) = true := by decide

/-- Section 2.5 row 4: no draw is made for `count = 0`. -/
theorem test_next_zero : nextWith (step (State.given pcg42 0x10#64 0 0 0)) (fun t =>
    decide (t.oq = [] ∧ t.regS = 0xA759EA27D4727622#64 ∧ statusWord t = 0x200#64)) = true := by decide

/-- Section 2.6 row 1, with four rejected draws. -/
theorem test_rand : nextWith (step (State.given pcg42 0x11#64 10 20 4)) (fun t =>
    decide (t.oq = [0xD#64, 0x11#64, 0x14#64, 0x11#64] ∧ t.regS = 0x7D6411843EAD239A#64)) = true := by decide

/-- Section 2.6 row 6: the top of the range does not wrap. -/
theorem test_rand_top : nextWith
    (step (State.given xs1 0x11#64 0xFFFFFFFFFFFFFFFD#64 0xFFFFFFFFFFFFFFFF#64 3)) (fun t =>
    decide (t.oq = [0xFFFFFFFFFFFFFFFF#64, 0xFFFFFFFFFFFFFFFF#64, 0xFFFFFFFFFFFFFFFD#64] ∧
      t.regS = 0xE9527EC575D632E0#64)) = true := by decide

/-- Section 2.7 row 6. -/
theorem test_bias : nextWith (step (State.given pcg42 0x12#64 5 3 2)) (fun t =>
    decide (t.oq = [0xD2ED8B1797FD2B37#64, 0x4661DB6976731B3B#64] ∧ t.regS = 0x6D2ED3688CC736D4#64)) = true := by decide

/-- Section 2.7, failing rows: all 64 bits of the exponent are compared. -/
theorem test_bias_exponent : nextWith (step (State.given pcg42 0x12#64 1 0x100000001#64 1)) (fun t =>
    decide (t.oq = [] ∧ t.regS = 0xA759EA27D4727622#64 ∧ t.code = .argumentOutOfBounds)) = true := by decide

/-- Section 2.8 row 1. -/
theorem test_unid : nextWith (step (State.given xs1 0x13#64 0 0 2)) (fun t =>
    decide (t.oq = [0x3A9187D9DD0ACAAE#64, 0xD87E83AF1C21B4BB#64] ∧ t.regS = 0xD87E83AF1C21B4BB#64)) = true := by decide

/-- 60_exceptions.md R181: UNID without an instance. -/
theorem test_unid_nothing :
    nextWith (step (State.given State.reset 0x13#64 0 0 2)) (fun t => decide (t.oq = [] ∧ t.code = .invalidInstance)) =
      true := by decide

/-- Section 2.9: an illegal word changes CODE alone. -/
theorem test_illegal_word : nextWith (step (State.given pcg42 0x7F#64 0 0 0)) (fun t =>
    decide (t.code = .illegalCommand ∧ t.regS = pcg42.regS ∧ t.valid = true)) = true := by decide

/-- A word placed for the next step runs as that step. -/
theorem test_withFetchWord : nextWith (step (State.reset.withFetchWord 64 0x0101)) (fun t =>
    decide (t.phase = .run ∧ t.lCmd = 0x101#64 ∧ t.script = [])) = true := by decide

/-- Section 2.10: a word is written and read back little-endian. -/
theorem test_bus_lanes : nextWith
    (step { State.reset with script := [.write 8 [0x88#8, 0x77#8, 0x66#8, 0x55#8, 0x44#8, 0x33#8, 0x22#8, 0x11#8]] })
    (fun t => decide (t.arg0 = 0x1122334455667788#64)) = true := by decide

/-- Section 2.10, the read of that word: the byte at `BASE + 0x08` is 0x88, at `BASE + 0x0F` 0x11. -/
theorem test_bus_lanes_read : nextWith
    (step { State.reset with arg0 := 0x1122334455667788#64, script := [.read 8 8] })
    (fun t => decide (t.observed.map (fun o => (laneByte 0 o 0x08, laneByte 0 o 0x0F, laneByte 0 o 0x10)) =
      [(some 0x88#8, some 0x11#8, none)])) = true := by decide

/-- 30_encoding.md R79, the row of RAND, at BASE 40H: `W ARG0, lo`; `W ARG1, hi`; `W COUNT, n`; `W CMD, 0x11`; `WAIT`. -/
theorem test_expand_rand : assembleLine ⟨0x40, some 6⟩ (.rand 7 1 5) =
    [.write 0x48 [1, 0, 0, 0, 0, 0, 0, 0], .write 0x50 [5, 0, 0, 0, 0, 0, 0, 0], .write 0x58 [7, 0, 0, 0, 0, 0, 0, 0],
      .write 0x40 [0x11, 0, 0, 0, 0, 0, 0, 0], .wait true] := by decide

/-- 70_reset_and_hazards.md R211: the answer to the request of an abandoned CONSTRUCT goes to no later attempt, whether it
came before the RESET or comes after it. -/
theorem test_reset_drops_answer : nextWith
    (step { State.given State.reset 0x101#64 0 0 0 with
      script := [.reset], answers := [⟨true, 5⟩, ⟨true, 6⟩], work := { Work.fresh with inFlight := true } })
    (fun t => decide (t.answers = [⟨true, 6⟩] ∧ t.dropped = 0 ∧ statusWord t = 0)) = true := by decide
theorem test_late_answer_ignored : nextWith
    (step { State.reset with script := [.entropy ⟨true, 5⟩], dropped := 1 })
    (fun t => decide (t.answers = [] ∧ t.dropped = 0)) = true := by decide

/-! ### Witnesses: a concrete state and operands that meet all hypotheses of each statement -/

/-- Steps that answer a next state, at work: a command of `count` 2 with its words still to come. -/
def busyNext : State := { State.given pcg42 0x10#64 0 0 2 with slice := 1 }

/-- A block whose queue of one word is full, with a word to append. -/
def stalledBlock : State :=
  { State.given pcg42 0x10#64 1 2 2 with
    oq := [7#64], platform := ⟨0, some 1⟩, work := { Work.fresh with pending := some 9#64 } }

/-- The state with this move next. -/
def State.with (s : State) (e : Event) : State := { s with script := [e] }

theorem witness_EncodeInvertsDecode : decode 0x000000000000FF01#64 = .ok (.construct 255) := by decide

theorem witness_IllegalWordsCompleteWithIllegalCommand :
    (∃ s : State, s.phase = .run ∧ s.script = [] ∧ decode s.lCmd = .error .reservedBits) ∧
    (∃ s : State, s.phase = .run ∧ s.script = .wait true :: [] ∧ (true && s.oavail) = false ∧
      decode s.lCmd = .error .unknownOpcode) ∧
    (∃ s : State, s.phase = .run ∧ s.script = .engine 0 :: [] ∧ decode s.lCmd = .error .kindNotZero) :=
  ⟨⟨State.given State.reset 0x10000#64 0 0 0, by decide⟩,
    ⟨State.with (State.given State.reset 0x7F#64 0 0 0) (.wait true), by decide⟩,
    ⟨State.with (State.given State.reset 0x110#64 0 0 0) (.engine 0), by decide⟩⟩

theorem witness_ByteLanes_lowest_and_highest :
    (bytesOfWord 0x1122334455667788#64)[0]? = some 0x88#8 ∧ (bytesOfWord 0x1122334455667788#64)[7]? = some 0x11#8 := by
  decide

theorem witness_ByteLanes_read_and_write :
    (∃ s : State, s.oq.head? = some 7#64 ∧ s.script = .read (s.platform.base + 8 * regIndex .dout) 8 :: []) ∧
    (∃ s : State, s.script = .read (s.platform.base + 8 * regIndex .status) 8 :: []) ∧
    (∃ (s : State) (bytes : List Byte), s.phase = .idle ∧ bytes.length = 8 ∧
      s.script = .write (s.platform.base + 8 * regIndex .cmd) bytes :: []) ∧
    (∃ (s : State) (bytes : List Byte), s.phase = .idle ∧ bytes.length = 8 ∧
      s.script = .write (s.platform.base + 8 * regIndex .count) bytes :: []) :=
  ⟨⟨State.with { pcg42 with oq := [7] } (.read 0x28 8), by decide⟩, ⟨State.with pcg42 (.read 0x20 8), by decide⟩,
    ⟨State.with pcg42 (.write 0 (bytesOfWord 16)), bytesOfWord 16, by decide⟩,
    ⟨State.with pcg42 (.write 0x18 (bytesOfWord 16)), bytesOfWord 16, by decide⟩⟩

theorem witness_StepRunsDecodedCommand :
    (busyNext.phase = .run ∧ decode busyNext.lCmd = .ok .next ∧ busyNext.script = []) ∧
    (∃ s : State, s.phase = .run ∧ decode s.lCmd = .ok .rand ∧ s.script = [.engine 0]) ∧
    (∃ s : State, s.phase = .run ∧ decode s.lCmd = .ok .bias ∧ s.script = [.wait true] ∧ (true && s.oavail) = false) :=
  ⟨by decide, ⟨State.with (State.given pcg42 0x11#64 0 1 1) (.engine 0), by decide⟩,
    ⟨State.with (State.given pcg42 0x12#64 1 1 1) (.wait true), by decide⟩⟩

theorem witness_AcceptedCmdWriteLatchesOperands : ∃ s : State, s.phase = .idle ∧
    s.script = writeEvent s.platform.base .cmd 0x7F#64 :: [] :=
  ⟨State.with State.reset (writeEvent 0 .cmd 0x7F#64), by decide⟩

/-- A line of each form, its operands at the ends of their ranges, with a WAIT that pops and one that does not. -/
theorem witness_AssemblerLineStartsItsCommand :
    ∀ l ∈ [Line.construct 255 (2 ^ 64 - 1), .destroy, .next (2 ^ 64 - 1), .rand 1 0 (2 ^ 64 - 1), .bias 0 1 64, .unid 0],
      ∀ popping, ∃ s : State, s.phase = .idle ∧ l.wellFormed = true ∧
        s.script = expandLine popping s.platform.base l ++ [.reset] := by
  have wf : ∀ l ∈ [Line.construct 255 (2 ^ 64 - 1), .destroy, .next (2 ^ 64 - 1), .rand 1 0 (2 ^ 64 - 1), .bias 0 1 64,
    .unid 0], l.wellFormed = true := by decide
  exact fun l hl popping => ⟨{ State.reset with script := expandLine popping 0 l ++ [.reset] }, rfl, wf l hl, rfl⟩

/-- As many words as OUT_DEPTH need no pops, one more does, and an unbounded queue never. -/
theorem witness_AssemblerLine_pops :
    waitMustPop ⟨0, some 3⟩ (.rand 3 1 5) = false ∧ waitMustPop ⟨0, some 3⟩ (.rand 4 1 5) = true ∧
    waitMustPop ⟨0, some 1⟩ (.construct 0 9) = false ∧ waitMustPop ⟨0, some 1⟩ .destroy = false ∧
    waitMustPop ⟨0, none⟩ (.next (2 ^ 64 - 1)) = false := by decide

theorem witness_CommandsReadOnlyLatches : ∃ t, exec .next busyNext = .next t ∧ decide (t.phase = .run) = true :=
  (nextWith_iff _ _).1 (by decide)

theorem witness_IgnoredOperandsHaveNoEffect :
    (∃ t, exec (.construct 1) (State.given State.reset 0x101#64 5 6 7) = .next t ∧ decide (t.valid = true) = true) ∧
    (∃ t, exec .destroy pcg42 = .next t ∧ decide (t.valid = false) = true) ∧
    (∃ t, exec .next busyNext = .next t ∧ decide (t.phase = .run) = true) ∧
    (∃ t, exec .unid busyNext = .next t ∧ decide (t.phase = .run) = true) :=
  ⟨(nextWith_iff _ _).1 (by decide), (nextWith_iff _ _).1 (by decide), (nextWith_iff _ _).1 (by decide),
    (nextWith_iff _ _).1 (by decide)⟩

theorem witness_CommandFrame :
    (∃ t, exec (.construct 0) (State.given State.reset 0x01#64 1 0 0) = .next t ∧ decide (t.valid = true) = true) ∧
    (∃ t, exec .destroy pcg42 = .next t ∧ decide (t.valid = false) = true) ∧
    (∃ t, exec .rand (State.given pcg42 0x11#64 10 20 4) = .next t ∧ decide (t.oq ≠ []) = true) ∧
    (∃ t, exec .bias (State.given pcg42 0x12#64 5 3 2) = .next t ∧ decide (t.oq ≠ []) = true) :=
  ⟨(nextWith_iff _ _).1 (by decide), (nextWith_iff _ _).1 (by decide), (nextWith_iff _ _).1 (by decide),
    (nextWith_iff _ _).1 (by decide)⟩

/-- A CONSTRUCT that waits for its first answer. -/
def waitingConstruct : State :=
  { State.given State.reset 0x101#64 0 0 0 with work := { Work.fresh with inFlight := true } }

/-- RESET with no request in flight, with one that has its answer, and with one that has not; an answer with a dropped
request to go to, and with none; a CONSTRUCT that waits. -/
theorem witness_ResetAbandonsRunningCommand :
    (∃ s : State, s.script = .reset :: [] ∧ s.phase = .run ∧ ¬ (s.phase = .run ∧ s.work.inFlight = true)) ∧
    (∃ s : State, s.script = .reset :: [] ∧ s.phase = .run ∧ s.work.inFlight = true ∧ s.answers = ⟨true, 5⟩ :: []) ∧
    (∃ s : State, s.script = .reset :: [] ∧ s.phase = .run ∧ s.work.inFlight = true ∧ s.answers = []) ∧
    (∃ s : State, s.script = .entropy ⟨true, 5⟩ :: [] ∧ 0 < s.dropped) ∧
    (∃ s : State, s.script = .entropy ⟨true, 5⟩ :: [] ∧ s.dropped = 0) ∧
    (∃ t, exec (.construct 1) (State.given State.reset 0x101#64 0 0 0) = .next t ∧ decide (t.phase = .run) = true) :=
  ⟨⟨State.with busyNext .reset, by decide⟩,
    ⟨State.with { waitingConstruct with answers := [⟨true, 5⟩] } .reset, by decide⟩,
    ⟨State.with waitingConstruct .reset, by decide⟩,
    ⟨State.with { State.reset with dropped := 1 } (.entropy ⟨true, 5⟩), by decide⟩,
    ⟨State.with waitingConstruct (.entropy ⟨true, 5⟩), by decide⟩, (nextWith_iff _ _).1 (by decide)⟩

theorem witness_StatusShowsItsFields :
    (∃ s : State, s.phase = .run ∧ s.script = .read (s.platform.base + 0x20) 8 :: []) ∧
    (∃ (s : State) (bytes : List Byte), bytes.length = 8 ∧ s.script = .write (s.platform.base + 0x20) bytes :: []) ∧
    (∃ t, step (State.given State.reset 0x10#64 0 0 0) = .next t ∧
      decide (t.code ≠ (State.given State.reset 0x10#64 0 0 0).code ∧ t.phase = .idle) = true) ∧
    (∃ t, step (State.given pcg42 0x10#64 0 0 0) = .next t ∧ decide (t.phase = .idle ∧ t.failed = []) = true) ∧
    (∀ rest, (State.given pcg42 0x10#64 0 0 0).script ≠ .reset :: rest) :=
  ⟨⟨State.with busyNext (.read 0x20 8), by decide⟩,
    ⟨State.with busyNext (.write 0x20 (bytesOfWord 0)), bytesOfWord 0, by decide⟩, (nextWith_iff _ _).1 (by decide),
    (nextWith_iff _ _).1 (by decide), by intro rest h; cases h⟩

theorem witness_OperandRegistersReadBack : ∃ (s : State), s.phase = .idle ∧
    s.script = writeEvent s.platform.base .count 0xFFFFFFFFFFFFFFFF#64 :: readEvent s.platform.base .count :: [] :=
  ⟨{ State.reset with script := [writeEvent 0 .count 0xFFFFFFFFFFFFFFFF#64, readEvent 0 .count] }, by decide⟩

theorem witness_DoutPopsTheHead :
    (∃ s : State, s.script = .read (s.platform.base + 0x28) 8 :: [] ∧ s.oq = 7#64 :: [8#64]) ∧
    (∃ s : State, s.script = .read (s.platform.base + 0x28) 8 :: [] ∧ s.oq = []) ∧
    (∃ s : State, s.script = .write (s.platform.base + 0x28) (bytesOfWord 1) :: []) :=
  ⟨⟨State.with { pcg42 with oq := [7, 8] } (.read 0x28 8), by decide⟩, ⟨State.with pcg42 (.read 0x28 8), by decide⟩,
    ⟨State.with pcg42 (.write 0x28 (bytesOfWord 1)), by decide⟩⟩

/-- The lowest and the highest address of the window, legal and not, for reads and for writes. -/
theorem witness_OnlyLegalAccessesAreAnswered :
    LegalRead pcg42 (pcg42.platform.base + 0x08) 8 ∧ LegalRead pcg42 (pcg42.platform.base + 0x20) 8 ∧
    LegalRead { pcg42 with oq := [1] } (pcg42.platform.base + 0x28) 8 ∧
    ¬ LegalRead pcg42 (pcg42.platform.base + 0x28) 8 ∧ ¬ LegalRead pcg42 pcg42.platform.base 8 ∧
    ¬ LegalRead pcg42 (pcg42.platform.base + 63) 8 ∧ ¬ LegalRead pcg42 (pcg42.platform.base + 0x08) 4 ∧
    LegalWrite pcg42 pcg42.platform.base 8 ∧ LegalWrite pcg42 (pcg42.platform.base + 0x18) 8 ∧
    ¬ LegalWrite pcg42 (pcg42.platform.base + 0x20) 8 ∧ ¬ LegalWrite pcg42 (pcg42.platform.base + 63) 8 ∧
    pcg42.phase = .idle := by
  refine ⟨⟨rfl, .arg0, by decide⟩, ⟨rfl, .status, by decide⟩, ⟨rfl, .dout, by decide⟩, ?_, ?_, ?_, ?_, ⟨rfl, .cmd, by decide⟩,
    ⟨rfl, .count, by decide⟩, ?_, ?_, rfl⟩
  · rintro ⟨-, r, -, ha, ho⟩; cases r <;> simp [regIndex] at ha; exact ho rfl rfl
  · rintro ⟨-, r, hr, ha, -⟩; cases r <;> simp [regIndex] at ha hr
  · rintro ⟨-, r, -, ha, -⟩; cases r <;> simp [regIndex] at ha
  · rintro ⟨h, -⟩; simp at h
  · rintro ⟨-, r, hr, ha⟩; cases r <;> simp [regIndex] at ha hr
  · rintro ⟨-, r, -, ha⟩; cases r <;> simp [regIndex] at ha

theorem witness_AccessOutsideWindowStops :
    (∃ s : State, 63 < s.platform.base ∧ s.script = .read 63 8 :: []) ∧
    (∃ s : State, s.platform.base + 64 ≤ 128 ∧ s.script = .write 128 (bytesOfWord 1) :: []) :=
  ⟨⟨State.with { pcg42 with platform := ⟨64, none⟩ } (.read 63 8), by decide⟩,
    ⟨State.with { pcg42 with platform := ⟨64, none⟩ } (.write 128 (bytesOfWord 1)), by decide⟩⟩

theorem witness_BusyBlockRefusesWrites :
    (∃ s : State, s.phase = .run ∧ s.script = writeEvent s.platform.base .cmd 2#64 :: []) ∧
    (∀ r, ∃ s : State, s.phase = .run ∧ s.script = readEvent s.platform.base r :: []) ∧
    (∃ s : State, s.phase = .run ∧ s.oq = 7 :: [] ∧ s.script = readEvent s.platform.base .dout :: []) :=
  ⟨⟨State.with busyNext (writeEvent 0 .cmd 2), by decide⟩, fun r => ⟨State.with busyNext (readEvent 0 r), rfl, rfl⟩,
    ⟨State.with stalledBlock (readEvent 0 .dout), by decide⟩⟩

theorem witness_MixerIsBijectiveFixingZero : (1 : Word) ≠ 0 ∧ (1 : Word) ≠ 2 := by decide

theorem witness_XorshiftIsBijectiveFixingZero : (0x8000000000000000 : Word) ≠ 0 := by decide

/-- No refused answer and nine of them; ten; a refused zero under the zero guard. -/
theorem witness_AcquisitionTakesFirstAcceptedOfTen :
    (∀ x ∈ List.replicate 9 (⟨true, 0⟩ : Answer), ¬ (x.ok = true ∧ ¬ (true = true ∧ x.v = 0))) ∧
    (List.replicate 9 (⟨true, 0⟩ : Answer)).length < 10 ∧ ¬ (true = true ∧ (1 : Word) = 0) ∧
    (∀ x ∈ List.replicate 10 (⟨false, 1⟩ : Answer), ¬ (x.ok = true ∧ ¬ (false = true ∧ x.v = 0))) ∧
    (List.replicate 10 (⟨false, 1⟩ : Answer)).length = 10 := by decide

theorem witness_ConstructFromNonzeroSeed : ∃ s : State, s.valid = false ∧ s.lA ≠ 0 :=
  ⟨State.given State.reset 1 0xFFFFFFFFFFFFFFFF#64 0 0, by decide⟩

theorem witness_ConstructPcgFromEntropy : ∃ (s : State) (a₁ a₂ : Answer),
    s.valid = false ∧ s.lA = 0 ∧ s.work = Work.fresh ∧ a₁.ok = true ∧ a₂.ok = true ∧
    (∀ x ∈ List.replicate 9 (⟨false, 1⟩ : Answer), x.ok = false) ∧ (List.replicate 9 (⟨false, 1⟩ : Answer)).length < 10 ∧
    s.answers = List.replicate 9 ⟨false, 1⟩ ++ a₁ :: (List.replicate 9 ⟨false, 1⟩ ++ a₂ :: []) :=
  ⟨{ State.given State.reset 1 0 0 0 with
      answers := List.replicate 9 ⟨false, 1⟩ ++ ⟨true, 3⟩ :: (List.replicate 9 ⟨false, 1⟩ ++ [⟨true, 4⟩]) },
    ⟨true, 3⟩, ⟨true, 4⟩, by decide⟩

theorem witness_ConstructPcgFromEntropy_exhausted : ∃ (s u : State) (a₁ : Answer),
    s.valid = false ∧ s.lA = 0 ∧ s.work = Work.fresh ∧ u.valid = false ∧ u.lA = 0 ∧ u.work = Work.fresh ∧ a₁.ok = true ∧
    (List.replicate 10 (⟨false, 1⟩ : Answer)).length = 10 ∧ (∀ x ∈ List.replicate 10 (⟨false, 1⟩ : Answer), x.ok = false) ∧
    s.answers = List.replicate 10 ⟨false, 1⟩ ++ [] ∧
    u.answers = [] ++ a₁ :: (List.replicate 10 ⟨false, 1⟩ ++ []) :=
  ⟨{ State.given State.reset 1 0 0 0 with answers := List.replicate 10 ⟨false, 1⟩ },
    { State.given State.reset 1 0 0 0 with answers := ⟨true, 3⟩ :: List.replicate 10 ⟨false, 1⟩ }, ⟨true, 3⟩, by decide⟩

theorem witness_ConstructXsFromEntropy : ∃ (s u : State) (a : Answer),
    s.valid = false ∧ s.lA = 0 ∧ s.work = Work.fresh ∧ u.valid = false ∧ u.lA = 0 ∧ u.work = Work.fresh ∧
    a.ok = true ∧ a.v ≠ 0 ∧ (∀ x ∈ List.replicate 9 (⟨true, 0⟩ : Answer), x.ok = false ∨ x.v = 0) ∧
    s.answers = List.replicate 9 ⟨true, 0⟩ ++ a :: [] ∧ u.answers = List.replicate 10 ⟨true, 0⟩ ++ [] :=
  ⟨{ State.given State.reset 0x101 0 0 0 with answers := List.replicate 9 ⟨true, 0⟩ ++ [⟨true, 1⟩] },
    { State.given State.reset 0x101 0 0 0 with answers := List.replicate 10 ⟨true, 0⟩ }, ⟨true, 1⟩, by decide⟩

theorem witness_EntropyArrivalTimeDoesNotMatter :
    ∃ t, exec (.construct 0) { State.given State.reset 1 0 0 0 with answers := [⟨true, 3⟩, ⟨false, 1⟩] } = .next t ∧
      decide (t.phase = .run ∧ t.work.attempts = 1 ∧ t.work.first = some 3) = true :=
  (nextWith_iff _ _).1 (by decide)

theorem witness_DestroyInvalidatesTheInstance : pcg42.valid = true ∧ State.reset.valid = false ∧ (1 : Word) ≠ 0 := by
  decide

theorem witness_LifecycleMisuseIsInvalidInstance :
    pcg42.valid = true ∧ State.reset.valid = false ∧ ∀ k, Instr.unid ≠ .construct k := by
  refine ⟨rfl, rfl, ?_⟩
  intro k h; cases h

/-- Boundary values of each operand check. -/
theorem witness_OperandChecksComeSecond :
    (0x02#8 ≠ 0x00#8 ∧ 0x02#8 ≠ 0x01#8) ∧ (19#64 < 20#64) ∧
    ¬ (0 < (0#64).toNat) ∧ ¬ (1 ≤ (0#64).toNat) ∧ ¬ ((65#64).toNat ≤ 64) ∧ ¬ ((8#64).toNat < 2 ^ (3#64).toNat) := by decide

theorem witness_CodesOfEachCommand :
    (∃ t, exec .bias (State.given pcg42 0x12#64 8 3 1) = .next t ∧
      decide (t.phase = .idle ∧ t.code = .argumentOutOfBounds) = true) ∧
    (∃ t, exec .rand (State.given pcg42 0x11#64 10 20 1) = .next t ∧
      decide (t.phase = .idle ∧ t.code = .success) = true) ∧
    (∃ t, exec (.construct 1)
        { State.given State.reset 0x101#64 0 0 0 with answers := List.replicate 10 ⟨true, 0⟩ } = .next t ∧
      decide (t.phase = .idle ∧ t.code = .hardwareEntropyExhausted) = true) ∧
    (∃ t, exec .destroy (State.given State.reset 2#64 0 0 0) = .next t ∧
      decide (t.phase = .idle ∧ t.code = .invalidInstance) = true) :=
  ⟨(nextWith_iff _ _).1 (by decide), (nextWith_iff _ _).1 (by decide), (nextWith_iff _ _).1 (by decide),
    (nextWith_iff _ _).1 (by decide)⟩

theorem witness_FailedCommandsChangeNothing :
    (∃ t, exec .rand (State.given pcg42 0x11#64 5 4 1) = .next t ∧
      decide (t.phase = .idle ∧ t.code ≠ .success) = true) ∧
    (∃ t, exec (.construct 1) (State.given State.reset 0x101#64 0 0 0) = .next t ∧ decide (t.phase = .run) = true) ∧
    (∃ t, exec .next busyNext = .next t ∧
      (decide (t.phase = .run) && nextWith (exec .next { t with oq := [], slice := 10 }) fun u =>
        decide (u.phase = .idle)) = true) :=
  ⟨(nextWith_iff _ _).1 (by decide), (nextWith_iff _ _).1 (by decide), (nextWith_iff _ _).1 (by decide)⟩

theorem witness_DrawAdvancesTheInstance : pcg42.kind = .pcg64 ∧ xs1.kind = .xs64 := by decide

/-- A platform whose queue has exactly the room the command needs, and exactly the time. -/
def exactFit (w a b n : Word) (slice : Nat) : State :=
  { State.given pcg42 w a b n with platform := ⟨0, some n.toNat⟩, slice := slice }

theorem exactFit_starts (w a b n : Word) (slice : Nat) :
    (exactFit w a b n slice).startsSampling ∧ (exactFit w a b n slice).roomFor (exactFit w a b n slice).lN.toNat := by
  refine ⟨⟨rfl, rfl, rfl⟩, ?_⟩
  intro d h
  cases h
  exact Nat.le_of_eq (Nat.zero_add _)

theorem witness_NextEmitsItsDraws : ∃ s : State,
    s.startsSampling ∧ s.roomFor s.lN.toNat ∧ s.lN.toNat = 3 ∧ 2 * s.lN.toNat + 1 ≤ s.slice :=
  ⟨exactFit 0x10 0 0 3 7, (exactFit_starts _ _ _ _ _).1, (exactFit_starts _ _ _ _ _).2, by decide⟩

theorem witness_UnidEmitsFractions : ∃ s : State,
    s.startsSampling ∧ s.roomFor s.lN.toNat ∧ s.lN.toNat = 0 ∧ 2 * s.lN.toNat + 1 ≤ s.slice :=
  ⟨exactFit 0x13 0 0 0 1, (exactFit_starts _ _ _ _ _).1, (exactFit_starts _ _ _ _ _).2, by decide⟩

/-- The failing clauses of NextEmitsItsDraws, UnidEmitsFractions, RandEmitsAcceptedDraws and BiasEmitsItsElements. -/
theorem witness_SamplingCommandsFail : State.reset.valid = false ∧
    (∃ s : State, s.valid = true ∧ s.lB < s.lA ∧ s.lN = 0) ∧
    (∃ s : State, s.valid = true ∧ biasCheck s.lA s.lB = false ∧ s.lN = 0) :=
  ⟨rfl, ⟨State.given pcg42 0x11#64 5 4 0, by decide⟩, ⟨State.given pcg42 0x12#64 0 3 0, by decide⟩⟩

/-- Section 2.6 row 1: eight draws for four words. -/
theorem witness_RandEmitsAcceptedDraws : ∃ s : State, s.startsSampling ∧ s.roomFor s.lN.toNat ∧ s.lA ≤ s.lB ∧
    8 + s.lN.toNat + 1 ≤ s.slice ∧
    (((rawStream s.kind s.regInc 8 s.regS).map (· &&& randMask (s.lB - s.lA))).filter
      (· ≤ s.lB - s.lA)).length = s.lN.toNat ∧
    ∀ m, m < 8 → (((rawStream s.kind s.regInc m s.regS).map (· &&& randMask (s.lB - s.lA))).filter
      (· ≤ s.lB - s.lA)).length < s.lN.toNat :=
  ⟨exactFit 0x11 10 20 4 13, (exactFit_starts _ _ _ _ _).1, (exactFit_starts _ _ _ _ _).2, by decide⟩

theorem witness_RandSamplesStayInRange : ∃ s : State, s.lA ≤ s.lB ∧
    (∀ v, s.work.pending = some v → s.lA ≤ v ∧ v ≤ s.lB) ∧ nextWith (exec .rand s) (fun t => decide (t.oq ≠ [])) = true := by
  refine ⟨State.given pcg42 0x11#64 10 20 4, by decide, ?_, by decide⟩
  intro v h; cases h

theorem witness_MaskIsLeastAllOnes : (7 : Word) ≤ 7 ∧ 1 ≤ (1 : Word).toNat ∧ (8 : Word).toNat ≤ 2 ^ 4 - 1 := by decide

theorem witness_FullRangeRandIsNext : ∃ s : State, s.lA = 0 ∧ s.lB = 0xFFFFFFFFFFFFFFFF#64 ∧ randMask 7 = 7 :=
  ⟨State.given pcg42 0x11#64 0 0xFFFFFFFFFFFFFFFF#64 3, by decide⟩

theorem witness_RandOfOneValueCostsOneDraw : ∃ s : State,
    s.startsSampling ∧ s.roomFor s.lN.toNat ∧ s.lA = s.lB ∧ 2 * s.lN.toNat + 1 ≤ s.slice :=
  ⟨exactFit 0x11 7 7 2 5, (exactFit_starts _ _ _ _ _).1, (exactFit_starts _ _ _ _ _).2, by decide⟩

theorem witness_OffsetAndSpanFactorTheNumerator :
    biasCheck 1 1 = true ∧ biasCheck 0x8000000000000000#64 64 = true ∧ biasCheck 0xFFFFFFFFFFFFFFFF#64 64 = true := by
  decide

/-- 42_sampling.md R142 by hand, numerator 101b: 0 | 12 = 12, 12 & 10 = 8, 8 | 1 = 9. -/
theorem test_bias_fold : biasFold 5 0 0 [12, 10, 1] = 9#64 := by decide

theorem witness_BiasEmitsItsElements : ∃ s : State,
    s.startsSampling ∧ s.roomFor s.lN.toNat ∧ biasCheck s.lA s.lB = true ∧
      s.lN.toNat * (biasSpan s.lA s.lB + 1) + 1 ≤ s.slice :=
  ⟨exactFit 0x12 5 3 2 9, (exactFit_starts _ _ _ _ _).1, (exactFit_starts _ _ _ _ _).2, by decide⟩

theorem witness_BiasIsExact : biasCheck 5 3 = true ∧ (0 : Nat) < 64 ∧ 63 < 64 ∧
    [1#64, 0#64].map (·.getLsbD 63) = [0#64, 2#64].map (·.getLsbD 63) := by decide

/-- With OQ full and no time left, which the statement does not ask for. -/
theorem witness_BiasOfOneHalfIsRaw : ∃ s : State, s.startsSampling ∧ biasCheck s.lA s.lB = true ∧ biasSpan s.lA s.lB = 1 ∧
    s.hasRoom = false ∧ s.slice = 0 :=
  ⟨{ State.given pcg42 0x12 0x8000000000000000#64 64 2 with oq := [7], platform := ⟨0, some 1⟩, slice := 0 },
    ⟨rfl, rfl, rfl⟩, by decide⟩

theorem witness_SuccessMeansCountWords : ∃ s : State, s.phase = .run ∧ s.work.j ≤ s.lN.toNat ∧
    (s.work.pending ≠ none → s.work.j < s.lN.toNat) ∧
    nextWith (exec .bias s) (fun t => decide (t.phase = .idle ∧ t.code = .success)) = true :=
  ⟨State.given pcg42 0x12#64 5 3 2, by decide⟩

theorem witness_EmitWaitsWhileQueueIsFull : stalledBlock.phase = .run ∧ stalledBlock.valid = true ∧
    stalledBlock.work.pending = some 9 ∧ stalledBlock.platform.outDepth = some 1 ∧ 1 ≤ stalledBlock.oq.length ∧
    stalledBlock.lA ≤ stalledBlock.lB ∧ biasCheck stalledBlock.lA stalledBlock.lB = true := by decide

/-- Section 2.5 row 1 through a queue of one word that held another: three words in order, the last one still in OQ. -/
def popped3 : Option (State × List Word) :=
  popRounds .next [(9, 1), (2, 1), (9, 1), (9, 0)]
    { State.given pcg42 0x10#64 0 0 3 with oq := [7], platform := ⟨0, some 1⟩ } []

theorem witness_EmitWaits_popped : popped3.map (fun p => (p.1.phase, p.2, p.1.oq, p.1.regS)) =
    some (.idle, [7#64, 0xC2D85BB11DF40D83#64, 0x2CEC8217F0AD5B0D#64], [0xD2658B16977D2337#64],
      0x192C348679246E5D#64) := by decide

theorem witness_EmitWaits_unbounded :
    (∃ u, exec .rand (State.unbounded 13 { State.given pcg42 0x11#64 10 20 4 with platform := ⟨0, some 1⟩ }) = .next u ∧
      decide (u.phase = .idle ∧ u.oq.length = 4) = true) ∧
    (∃ u, exec .bias (State.unbounded 13 { State.given pcg42 0x12#64 0 3 1 with platform := ⟨0, some 1⟩ }) = .next u ∧
      decide (u.code = .argumentOutOfBounds) = true) :=
  ⟨(nextWith_iff _ _).1 (by decide), (nextWith_iff _ _).1 (by decide)⟩

theorem witness_TimeSlicingDoesNotMatter :
    (∃ t, exec .rand { State.given pcg42 0x11#64 10 20 4 with slice := 3 } = .next t ∧ decide (t.phase = .run) = true) ∧
    (∃ t, exec (.construct 0) { State.given State.reset 0x01#64 0 0 0 with slice := 0 } = .next t ∧
      decide (t.phase = .run) = true) :=
  ⟨(nextWith_iff _ _).1 (by decide), (nextWith_iff _ _).1 (by decide)⟩

/-- A reset state whose queue has a bound. -/
theorem witness_InvariantsHoldAtReset :
    ({ State.reset with platform := ⟨64, some 1⟩ } : State).platform.outDepth = some 1 := rfl

theorem xs1_inv : InstanceInv xs1 := fun _ => ⟨fun h => (by cases h), fun _ => by decide⟩

theorem witness_EveryStepKeepsInstanceInvariant : ∃ s : State, InstanceInv s ∧ s.valid = true ∧
    nextWith (step s) (fun t => decide (t.valid = true ∧ t.regS ≠ s.regS)) = true :=
  ⟨State.given xs1 0x10#64 0 0 1, xs1_inv, by decide⟩

theorem witness_EveryStepKeepsCodesLegal : ∃ s : State, CodeInv s ∧
    nextWith (step s) (fun t => decide (t.failed = [.invalidInstance])) = true :=
  ⟨State.given State.reset 0x10#64 0 0 1, ⟨by decide, by decide⟩, by decide⟩

theorem witness_EveryStepKeepsQueueBound : ∃ s : State, QueueInv s ∧ s.platform.outDepth = some 1 ∧
    nextWith (step s) (fun t => decide (t.oq = stalledBlock.oq)) = true :=
  ⟨stalledBlock, fun d h => by cases h; decide, by decide⟩

theorem witness_QueueIsFirstInFirstOut :
    (∃ t, step (State.given pcg42 0x10#64 0 0 1) = .next t ∧ decide (t.oq.length = 1) = true) ∧
    (∃ t, step (State.with stalledBlock (.read 0x28 8)) = .next t ∧ decide (t.oq = []) = true) :=
  ⟨(nextWith_iff _ _).1 (by decide), (nextWith_iff _ _).1 (by decide)⟩

theorem witness_OnlyLifecycleChangesValid :
    (∃ t, step (State.given State.reset 0x01#64 1 0 0) = .next t ∧ decide (t.valid = true) = true) ∧
    (∃ t, step (State.given xs1 0x02#64 0 0 0) = .next t ∧ decide (t.valid = false) = true) ∧
    (∃ t, step (State.with xs1 .reset) = .next t ∧ decide (t.valid = false) = true) ∧
    (∃ t, exec (.construct 7) (State.given State.reset 0x0701#64 1 0 0) = .next t ∧ decide (t.phase = .idle) = true) ∧
    (State.given xs1 0x02#64 0 0 0).valid = true :=
  ⟨(nextWith_iff _ _).1 (by decide), (nextWith_iff _ _).1 (by decide), (nextWith_iff _ _).1 (by decide),
    (nextWith_iff _ _).1 (by decide), rfl⟩

theorem witness_IncAndKindAreFixedForLife : ∃ s : State, s.valid = true ∧
    nextWith (step s) (fun t => decide (t.valid = true ∧ t.oq ≠ [])) = true :=
  ⟨State.given pcg42 0x10#64 0 0 1, by decide⟩

/-- A success leaves the record, a failure adds its code. -/
theorem witness_FailuresAreRecordedForEver :
    (∃ t, step (State.given { xs1 with failed := [.illegalCommand] } 0x10#64 0 0 1) = .next t ∧
      decide (t.code = .success ∧ t.failed = [.illegalCommand]) = true) ∧
    (∃ t, step (State.given { xs1 with failed := [.illegalCommand] } 0x11#64 5 4 1) = .next t ∧
      decide (t.phase = .idle ∧ t.code ≠ .success ∧ t.failed = [.illegalCommand, .argumentOutOfBounds]) = true) :=
  ⟨(nextWith_iff _ _).1 (by decide), (nextWith_iff _ _).1 (by decide)⟩

theorem witness_EqualSeedsGiveEqualStreams : ∃ s₁ s₂ : State, s₁ ≠ s₂ ∧ s₁.valid = false ∧ s₂.valid = false ∧
    s₁.lA = s₂.lA ∧ s₁.lA ≠ 0 :=
  ⟨State.given State.reset 0x01#64 42 0 0, { State.given State.reset 0x01#64 42 9 9 with regInc := 5, oq := [3] },
    by decide⟩

theorem witness_NoValueIsNeverObserved :
    SameButNoValue State.reset { State.reset with regS := 5, regInc := 6, kind := .xs64 } ∧
    SameButNoValue xs1 { xs1 with regInc := 6 } :=
  ⟨⟨rfl, fun h => by cases h⟩, ⟨rfl, fun _ => ⟨rfl, rfl, fun h => by cases h⟩⟩⟩

theorem witness_IdleBlockRests :
    (∃ s : State, s.phase = .idle ∧ s.script = []) ∧ (∃ s : State, s.phase = .idle ∧ s.script = .wait true :: []) ∧
    (∃ s : State, s.phase = .run ∧ s.script = .wait true :: [] ∧ s.oq = 7 :: []) :=
  ⟨⟨pcg42, by decide⟩, ⟨State.with pcg42 (.wait true), by decide⟩, ⟨State.with stalledBlock (.wait true), by decide⟩⟩

end Sys2Proof.Tests
end

/-! What a sampling run leaves unchanged, and what any command can do, said once as an inductive description of the
state after `exec`; the obligations about the state rest on these. -/

namespace Sys2Proof.Machine

/-! ### A sampling run, field by field -/

section
variable (piece : Nat → Word → Word → Piece) (n : Nat) (s : State)

/-- A view of the state that reads nothing a sampling run writes is the same after it. -/
theorem sampleRun_view {α : Type} (f : State → α) (hf : ∀ regS oq work code phase,
    f { s with regS := regS, oq := oq, work := work, code := code, phase := phase } = f s) :
    f (sampleRun piece n s) = f s := by
  have h : SamplingFrame s (sampleRun piece n s) := sampleRun_frame n s
  rw [SamplingFrame] at h
  rw [h, hf]

@[simp] theorem sampleRun_regInc : (sampleRun piece n s).regInc = s.regInc :=
  sampleRun_view piece n s State.regInc fun _ _ _ _ _ => rfl
@[simp] theorem sampleRun_kind : (sampleRun piece n s).kind = s.kind :=
  sampleRun_view piece n s State.kind fun _ _ _ _ _ => rfl
@[simp] theorem sampleRun_valid : (sampleRun piece n s).valid = s.valid :=
  sampleRun_view piece n s State.valid fun _ _ _ _ _ => rfl
@[simp] theorem sampleRun_arg0 : (sampleRun piece n s).arg0 = s.arg0 :=
  sampleRun_view piece n s State.arg0 fun _ _ _ _ _ => rfl
@[simp] theorem sampleRun_arg1 : (sampleRun piece n s).arg1 = s.arg1 :=
  sampleRun_view piece n s State.arg1 fun _ _ _ _ _ => rfl
@[simp] theorem sampleRun_count : (sampleRun piece n s).count = s.count :=
  sampleRun_view piece n s State.count fun _ _ _ _ _ => rfl
@[simp] theorem sampleRun_lCmd : (sampleRun piece n s).lCmd = s.lCmd :=
  sampleRun_view piece n s State.lCmd fun _ _ _ _ _ => rfl
@[simp] theorem sampleRun_lA : (sampleRun piece n s).lA = s.lA := sampleRun_view piece n s State.lA fun _ _ _ _ _ => rfl
@[simp] theorem sampleRun_lB : (sampleRun piece n s).lB = s.lB := sampleRun_view piece n s State.lB fun _ _ _ _ _ => rfl
@[simp] theorem sampleRun_lN : (sampleRun piece n s).lN = s.lN := sampleRun_view piece n s State.lN fun _ _ _ _ _ => rfl
@[simp] theorem sampleRun_platform : (sampleRun piece n s).platform = s.platform :=
  sampleRun_view piece n s State.platform fun _ _ _ _ _ => rfl
@[simp] theorem sampleRun_script : (sampleRun piece n s).script = s.script :=
  sampleRun_view piece n s State.script fun _ _ _ _ _ => rfl
@[simp] theorem sampleRun_answers : (sampleRun piece n s).answers = s.answers :=
  sampleRun_view piece n s State.answers fun _ _ _ _ _ => rfl
@[simp] theorem sampleRun_dropped : (sampleRun piece n s).dropped = s.dropped :=
  sampleRun_view piece n s State.dropped fun _ _ _ _ _ => rfl
@[simp] theorem sampleRun_slice : (sampleRun piece n s).slice = s.slice :=
  sampleRun_view piece n s State.slice fun _ _ _ _ _ => rfl
@[simp] theorem sampleRun_freeCount : (sampleRun piece n s).freeCount = s.freeCount :=
  sampleRun_view piece n s State.freeCount fun _ _ _ _ _ => rfl
@[simp] theorem sampleRun_observed : (sampleRun piece n s).observed = s.observed :=
  sampleRun_view piece n s State.observed fun _ _ _ _ _ => rfl
@[simp] theorem sampleRun_failed : (sampleRun piece n s).failed = s.failed :=
  sampleRun_view piece n s State.failed fun _ _ _ _ _ => rfl

end

/-! ### Words that are never zero -/

theorem xsAdvance_injective : Function.Injective xsAdvance :=
  (xorShiftLeft_injective 17 (by decide)).comp
    ((xorShiftRight_injective 7 (by decide)).comp (xorShiftLeft_injective 13 (by decide)))

theorem xsAdvance_ne_zero {s : Word} (h : s ≠ 0) : xsAdvance s ≠ 0 := fun e =>
  h (xsAdvance_injective (e.trans (by decide : (0 : Word) = xsAdvance 0)))

theorem mix64_injective : Function.Injective mix64 :=
  (xorShiftRight_injective 31 (by decide)).comp <|
    (mul_injective_of_inverse mixC2 0x319642B2D24D8EC3#64 (by decide)).comp <|
      (xorShiftRight_injective 27 (by decide)).comp <|
        (mul_injective_of_inverse mixC1 0x96DE1B173F119089#64 (by decide)).comp
          (xorShiftRight_injective 30 (by decide))

theorem mix64_ne_zero {x : Word} (h : x ≠ 0) : mix64 x ≠ 0 := fun e =>
  h (mix64_injective (e.trans (by decide : (0 : Word) = mix64 0)))

/-! ### What a command does -/

theorem isSampling_iff (i : Instr) : isSampling i = true ↔ i = .next ∨ i = .rand ∨ i = .bias ∨ i = .unid := by
  cases i <;> simp [isSampling]

theorem exec_of_operandsOk {i : Instr} {s : State} (hi : isSampling i = true) (hv : s.valid = true)
    (ho : operandsOk i s = true) : exec i s = .next (sampleRun (pieceOf i s) s.slice s) := by
  rw [exec_sampling hi, if_pos hv, if_pos ho]

theorem exec_of_not_operandsOk {i : Instr} {s : State} (hi : isSampling i = true) (hv : s.valid = true)
    (ho : operandsOk i s = false) : exec i s = .next (s.raise .argumentOutOfBounds) := by
  rw [exec_sampling hi, if_pos hv, ho, if_neg Bool.false_ne_true]

theorem exec_of_not_valid {i : Instr} {s : State} (hi : isSampling i = true) (hv : s.valid = false) :
    exec i s = .next (s.raise .invalidInstance) := by
  rw [exec_sampling hi, hv, if_neg Bool.false_ne_true]

theorem destroy_of_valid {s : State} (hv : s.valid = true) : exec .destroy s = .next s.discard.succeed := by
  simp only [exec, execDestroy, hv, if_true]

theorem destroy_of_not_valid {s : State} (hv : s.valid = false) :
    exec .destroy s = .next (s.raise .invalidInstance) := by
  simp only [exec, execDestroy, hv, Bool.false_eq_true, if_false]

theorem arbiterFrame_iff {s t : State} :
    ArbiterFrame s t ↔ ∃ answers work, t = { s with answers := answers, work := work } :=
  ⟨fun h => ⟨_, _, h⟩, by rintro ⟨_, _, rfl⟩; rfl⟩

/-- The state after a command, by what the command did: it sampled, discarded the generator, built one of either kind,
waits for entropy, or failed (its checks, or exhausted entropy). -/
inductive CommandEffect (i : Instr) (s : State) : State → Prop
  | samples : isSampling i = true → s.valid = true → operandsOk i s = true →
      CommandEffect i s (sampleRun (pieceOf i s) s.slice s)
  | discards : i = .destroy → s.valid = true → CommandEffect i s s.discard.succeed
  | buildsPcg (k : BitVec 8) (answers : List Answer) (work : Work) (v inc : Word) : i = .construct k → s.valid = false →
      CommandEffect i s (State.installPcg v inc { s with answers := answers, work := work }).succeed
  | buildsXs (k : BitVec 8) (answers : List Answer) (work : Work) (v : Word) : i = .construct k → s.valid = false →
      v ≠ 0 → CommandEffect i s (State.installXs v { s with answers := answers, work := work }).succeed
  | waits (k : BitVec 8) (answers : List Answer) (work : Work) : i = .construct k → s.valid = false →
      CommandEffect i s { s with answers := answers, work := work }
  | exhausts (k : BitVec 8) (answers : List Answer) (work : Work) : i = .construct k → s.valid = false →
      CommandEffect i s (State.raise .hardwareEntropyExhausted { s with answers := answers, work := work })
  | fails (c : ResultCode) : c ≠ .success → c ≠ .allocationFailure → CommandEffect i s (s.raise c)

/-- CONSTRUCT, from the case analysis `construct_cases`; the word of an XS64 generator is not zero, since the mixer maps
no other word to zero (41_generator_core.md R120). -/
theorem construct_effect {k : BitVec 8} {s t : State} (h : exec (.construct k) s = .next t) :
    CommandEffect (.construct k) s t := by
  rcases construct_cases h with ⟨_, rfl⟩ | ⟨_, _, _, rfl⟩ | ⟨hv, v, inc, u, hu, rfl⟩ | ⟨hv, v, u, hz, hu, rfl⟩ |
    ⟨hv, _, u, hu, rfl⟩ | ⟨hv, _, ht, _, _⟩
  · exact .fails _ (by decide) (by decide)
  · exact .fails _ (by decide) (by decide)
  · obtain ⟨as, w, rfl⟩ := arbiterFrame_iff.1 hu
    exact .buildsPcg k as w v inc rfl hv
  · obtain ⟨as, w, rfl⟩ := arbiterFrame_iff.1 hu
    have hz : v ≠ 0 := hz.elim id fun ⟨hA, e⟩ => e ▸ mix64_ne_zero hA
    exact .buildsXs k as w v rfl hv hz
  · obtain ⟨as, w, rfl⟩ := arbiterFrame_iff.1 hu
    exact .exhausts k as w rfl hv
  · obtain ⟨as, w, rfl⟩ := arbiterFrame_iff.1 ht
    exact .waits k as w rfl hv

theorem exec_effect {i : Instr} {s t : State} (h : exec i s = .next t) : CommandEffect i s t := by
  by_cases hi : isSampling i = true
  · rcases sampling_cases hi h with ⟨hv, ho, rfl⟩ | ⟨_, _, rfl⟩ | ⟨_, rfl⟩
    · exact .samples hi hv ho
    · exact .fails _ (by decide) (by decide)
    · exact .fails _ (by decide) (by decide)
  · rcases not_sampling hi with rfl | ⟨k, rfl⟩
    · rcases destroy_cases h with ⟨hv, rfl⟩ | ⟨_, rfl⟩
      · exact .discards rfl hv
      · exact .fails _ (by decide) (by decide)
    · exact construct_effect h

/-- A command's move leaves it running with CODE as it was, or completes it with SUCCESS, or fails it, the code joining
the record of failures (60_exceptions.md R184, R185). -/
def RunsOrCompletes (s t : State) : Prop :=
  (t.phase = .run ∧ t.code = s.code ∧ t.failed = s.failed) ∨
  (t.phase = .idle ∧ t.code = .success ∧ t.failed = s.failed) ∨
  (t.phase = .idle ∧ t.code ≠ .success ∧ t.failed = s.failed ++ [t.code])

theorem sampleRun_runsOrCompletes (piece : Nat → Word → Word → Piece) (n : Nat) {s : State} (h : s.phase = .run) :
    RunsOrCompletes s (sampleRun piece n s) := by
  refine sampleRun_induct (P := RunsOrCompletes s) (fun u hu hr hst => ?_) n s (.inl ⟨h, rfl, rfl⟩)
  rcases sampleTick_cases (piece := piece) u hst with
    ⟨v, _, _, e⟩ | ⟨_, _, v, _, e⟩ | ⟨_, _, k, acc, _, e⟩ | ⟨_, _, e⟩ <;> rw [e]
  · exact hu
  · exact hu
  · exact hu
  · obtain ⟨_, hf⟩ : u.code = s.code ∧ u.failed = s.failed := by simpa [RunsOrCompletes, hr] using hu
    exact .inr (.inl ⟨rfl, rfl, hf⟩)

theorem exec_runsOrCompletes {i : Instr} {s t : State} (hr : s.phase = .run) (h : exec i s = .next t) :
    RunsOrCompletes s t := by
  cases exec_effect h with
  | samples => exact sampleRun_runsOrCompletes _ _ hr
  | discards | buildsPcg | buildsXs => exact .inr (.inl ⟨rfl, rfl, rfl⟩)
  | waits => exact .inl ⟨hr, rfl, rfl⟩
  | exhausts => exact .inr (.inr ⟨rfl, by simp, rfl⟩)
  | fails c hc => exact .inr (.inr ⟨rfl, hc, rfl⟩)

end Sys2Proof.Machine

namespace Sys2Proof.Machine

/-! ### Invariants of every step -/

theorem installPcg_instanceInv (v inc : Word) (s : State) : InstanceInv (s.installPcg v inc).succeed := fun _ =>
  ⟨fun _ => by simp [State.succeed, State.installPcg], fun h => by cases h⟩

theorem drawn_instanceInv {s : State} (h : InstanceInv s) : InstanceInv s.drawn := fun hv =>
  ⟨(h hv).1, fun hk => by
    have hk : s.kind = .xs64 := hk
    rw [State.drawn_regS, hk]
    exact xsAdvance_ne_zero ((h hv).2 hk)⟩

theorem sampleRun_instanceInv (piece : Nat → Word → Word → Piece) (n : Nat) {s : State} (h : InstanceInv s) :
    InstanceInv (sampleRun piece n s) := by
  refine sampleRun_induct (P := InstanceInv) (fun u hu _ hst => ?_) n s h
  rcases sampleTick_cases (piece := piece) u hst with
    ⟨v, _, _, e⟩ | ⟨_, _, v, _, e⟩ | ⟨_, _, k, acc, _, e⟩ | ⟨_, _, e⟩ <;> rw [e]
  · exact hu
  · exact drawn_instanceInv hu
  · exact drawn_instanceInv hu
  · exact hu

theorem exec_instanceInv {i : Instr} {s t : State} (he : exec i s = .next t) (h : InstanceInv s) : InstanceInv t := by
  cases exec_effect he with
  | samples => exact sampleRun_instanceInv _ _ h
  | discards => exact fun hv => by cases hv
  | buildsPcg k as w v inc => exact installPcg_instanceInv _ _ _
  | buildsXs k as w v _ _ hz => exact fun _ => ⟨fun hk => (by cases hk), fun _ => hz⟩
  | waits | exhausts | fails => exact h

/-- Settles O50: a sampling run draws with an XS64 advance that maps no word but zero to zero, and CONSTRUCT installs an
odd increment or a word that is not zero. -/
theorem everyStepKeepsInstanceInvariant : Obligations.EveryStepKeepsInstanceInvariant := by
  intro s t hs h
  have key := step_induct (fun s t => InstanceInv s → InstanceInv t)
    (script := fun _ _ _ _ h => h) (rests := fun _ h => h) (observes := fun _ _ _ h => h)
    (pops := fun _ _ _ _ h => h) (accepts := fun _ _ _ h => h) (operands := fun _ _ _ _ h => h)
    (answers := fun _ _ _ h => h) (illegal := fun _ _ h => h) (commands := fun _ _ _ _ _ he => exec_instanceInv he) h
  rcases key with ⟨_, _, _, _, rfl⟩ | key
  · exact fun hv => by cases hv
  · exact key hs

theorem length_lt_of_hasRoom {s : State} {d : Nat} (h : s.hasRoom = true) (hd : s.platform.outDepth = some d) :
    s.oq.length < d := by
  simpa [State.hasRoom, hd] using h

theorem sampleRun_queueInv (piece : Nat → Word → Word → Piece) (n : Nat) {s : State} (h : QueueInv s) :
    QueueInv (sampleRun piece n s) := by
  refine sampleRun_induct (P := QueueInv) (fun u hu _ hst => ?_) n s h
  rcases sampleTick_cases (piece := piece) u hst with
    ⟨v, _, hr, e⟩ | ⟨_, _, v, _, e⟩ | ⟨_, _, k, acc, _, e⟩ | ⟨_, _, e⟩ <;> rw [e]
  · intro d hd
    have := length_lt_of_hasRoom hr hd
    simpa using this
  · exact hu
  · exact hu
  · exact hu

/-- OUT_DEPTH and BASE are as before, and so is the bound of OQ. -/
def KeepsQueueBound (s t : State) : Prop := t.platform = s.platform ∧ (QueueInv s → QueueInv t)

theorem popped_queueInv {s : State} (h : QueueInv s) : QueueInv s.popped := fun d hd => by
  have := h d hd
  simp only [State.popped_oq, List.length_tail]
  omega

theorem exec_keepsQueueBound {i : Instr} {s t : State} (he : exec i s = .next t) : KeepsQueueBound s t := by
  cases exec_effect he with
  | samples => exact ⟨sampleRun_platform _ _ _, sampleRun_queueInv _ _⟩
  | discards | buildsPcg | buildsXs | waits | exhausts | fails => exact ⟨rfl, id⟩

/-- Settles O53: OQ grows only by an emit, which has room. -/
theorem everyStepKeepsQueueBound : Obligations.EveryStepKeepsQueueBound := by
  intro s t h
  have key := step_induct KeepsQueueBound
    (script := fun _ _ _ _ h => h) (rests := fun _ => ⟨rfl, id⟩) (observes := fun _ _ _ => ⟨rfl, id⟩)
    (pops := fun _ _ _ _ => ⟨rfl, popped_queueInv⟩) (accepts := fun _ _ _ => ⟨rfl, id⟩)
    (operands := fun _ _ _ _ => ⟨rfl, id⟩) (answers := fun _ _ _ => ⟨rfl, id⟩) (illegal := fun _ _ => ⟨rfl, id⟩)
    (commands := fun _ _ _ _ _ he => exec_keepsQueueBound he) h
  rcases key with ⟨_, _, _, _, rfl⟩ | key
  · exact ⟨rfl, fun _ d _ => Nat.zero_le d⟩
  · exact key

/-! ### Registers that hold no value -/

/-- The state with other contents of S, INC and KIND. -/
def State.withGenerator (a b : Word) (k : GenKind) (s : State) : State := { s with regS := a, regInc := b, kind := k }

theorem sameButNoValue_iff {s t : State} : SameButNoValue s t ↔ ∃ a b k, t = s.withGenerator a b k ∧
    (s.valid = true → a = s.regS ∧ k = s.kind ∧ (s.kind = .pcg64 → b = s.regInc)) := by
  constructor
  · rintro ⟨e, h⟩
    exact ⟨_, _, _, e, h⟩
  · rintro ⟨a, b, k, rfl, h⟩
    exact ⟨rfl, h⟩

theorem SameButNoValue.valid_eq {s t : State} (h : SameButNoValue s t) : t.valid = s.valid := by rw [h.1]
theorem SameButNoValue.phase_eq {s t : State} (h : SameButNoValue s t) : t.phase = s.phase := by rw [h.1]
theorem SameButNoValue.work_eq {s t : State} (h : SameButNoValue s t) : t.work = s.work := by rw [h.1]
theorem SameButNoValue.answers_eq {s t : State} (h : SameButNoValue s t) : t.answers = s.answers := by rw [h.1]
theorem SameButNoValue.platform_eq {s t : State} (h : SameButNoValue s t) : t.platform = s.platform := by rw [h.1]
theorem SameButNoValue.oq_eq {s t : State} (h : SameButNoValue s t) : t.oq = s.oq := by rw [h.1]
theorem SameButNoValue.script_eq {s t : State} (h : SameButNoValue s t) : t.script = s.script := by rw [h.1]
theorem SameButNoValue.lCmd_eq {s t : State} (h : SameButNoValue s t) : t.lCmd = s.lCmd := by rw [h.1]
theorem SameButNoValue.lA_eq {s t : State} (h : SameButNoValue s t) : t.lA = s.lA := by rw [h.1]
theorem SameButNoValue.lB_eq {s t : State} (h : SameButNoValue s t) : t.lB = s.lB := by rw [h.1]
theorem SameButNoValue.lN_eq {s t : State} (h : SameButNoValue s t) : t.lN = s.lN := by rw [h.1]
theorem SameButNoValue.slice_eq {s t : State} (h : SameButNoValue s t) : t.slice = s.slice := by rw [h.1]

/-- An operation that neither reads nor writes S, INC and KIND, and sets no VALID, keeps the relation. -/
theorem SameButNoValue.congr {s t : State} (h : SameButNoValue s t) (f : State → State)
    (hf : ∀ u a b k, f (u.withGenerator a b k) = (f u).withGenerator a b k) (hv : (f s).valid = true → s.valid = true) :
    SameButNoValue (f s) (f t) := by
  obtain ⟨a, b, k, rfl, hval⟩ := sameButNoValue_iff.1 h
  have e : f s = (f s).withGenerator s.regS s.regInc s.kind := hf s s.regS s.regInc s.kind
  refine sameButNoValue_iff.2 ⟨a, b, k, hf s a b k, fun hfs => ?_⟩
  rw [e]
  exact hval (hv hfs)

theorem SameButNoValue.statusWord_eq {s t : State} (h : SameButNoValue s t) : statusWord t = statusWord s := by
  obtain ⟨a, b, k, rfl, hval⟩ := sameButNoValue_iff.1 h
  have hk : (s.withGenerator a b k).kindView = s.kindView := by
    by_cases hv : s.valid = true
    · simp only [State.kindView, State.withGenerator, hv, (hval hv).2.1]
    · simp [State.kindView, State.withGenerator, hv]
  unfold statusWord
  rw [hk]
  rfl

theorem SameButNoValue.raise {s t : State} (h : SameButNoValue s t) (c : ResultCode) :
    SameButNoValue (s.raise c) (t.raise c) := h.congr (State.raise c) (fun _ _ _ _ => rfl) id

theorem SameButNoValue.succeed {s t : State} (h : SameButNoValue s t) : SameButNoValue s.succeed t.succeed :=
  h.congr State.succeed (fun _ _ _ _ => rfl) id

theorem SameButNoValue.arbiter {s t : State} (h : SameButNoValue s t) (rest : List Answer) (used : Nat) (b : Bool) :
    SameButNoValue (s.arbiter rest used b) (t.arbiter rest used b) :=
  h.congr (State.arbiter rest used b) (fun _ _ _ _ => rfl) id

theorem SameButNoValue.keepFirst {s t : State} (h : SameButNoValue s t) (v : Word) :
    SameButNoValue (s.keepFirst v) (t.keepFirst v) := h.congr (State.keepFirst v) (fun _ _ _ _ => rfl) id

theorem SameButNoValue.observe {s t : State} (h : SameButNoValue s t) (r : Reg) (v : Word) :
    SameButNoValue (s.observe r v) (t.observe r v) := h.congr (State.observe r v) (fun _ _ _ _ => rfl) id

theorem SameButNoValue.installPcg {s t : State} (h : SameButNoValue s t) (v inc : Word) :
    SameButNoValue (s.installPcg v inc) (t.installPcg v inc) := by
  obtain ⟨a, b, k, rfl, _⟩ := sameButNoValue_iff.1 h
  exact sameButNoValue_iff.2 ⟨_, _, _, rfl, fun _ => ⟨rfl, rfl, fun _ => rfl⟩⟩

theorem SameButNoValue.installXs {s t : State} (h : SameButNoValue s t) (v : Word) :
    SameButNoValue (s.installXs v) (t.installXs v) := by
  obtain ⟨a, b, k, rfl, _⟩ := sameButNoValue_iff.1 h
  exact sameButNoValue_iff.2 ⟨v, b, .xs64, rfl, fun _ => ⟨rfl, rfl, fun hk => by cases hk⟩⟩

theorem SameButNoValue.discard {s t : State} (h : SameButNoValue s t) : SameButNoValue s.discard t.discard := by
  obtain ⟨a, b, k, rfl, _⟩ := sameButNoValue_iff.1 h
  exact sameButNoValue_iff.2 ⟨_, _, _, rfl, fun hv => by cases hv⟩

/-- RESET leaves nothing of what the two states differ in. -/
theorem SameButNoValue.resetBlock {s t : State} (h : SameButNoValue s t) :
    SameButNoValue s.resetBlock t.resetBlock := by
  obtain ⟨a, b, k, rfl, _⟩ := sameButNoValue_iff.1 h
  exact ⟨rfl, fun _ => ⟨rfl, rfl, fun _ => rfl⟩⟩

/-- With VALID = 1 a draw reads INC only under PCG64. -/
theorem SameButNoValue.drawn {s t : State} (h : SameButNoValue s t) (hv : s.valid = true) :
    SameButNoValue s.drawn t.drawn := by
  obtain ⟨a, b, k, rfl, hval⟩ := sameButNoValue_iff.1 h
  obtain ⟨rfl, rfl, hinc⟩ := hval hv
  refine sameButNoValue_iff.2 ⟨_, b, s.kind, rfl, fun _ => ⟨?_, rfl, hinc⟩⟩
  cases hk : s.kind with
  | pcg64 => simp [State.withGenerator, hk, hinc hk]
  | xs64 => simp [State.withGenerator, hk, advance]

theorem SameButNoValue.drawWord_eq {s t : State} (h : SameButNoValue s t) (hv : s.valid = true) :
    t.drawWord = s.drawWord := by
  obtain ⟨a, b, k, rfl, hval⟩ := sameButNoValue_iff.1 h
  obtain ⟨rfl, rfl, _⟩ := hval hv
  rfl

theorem SameButNoValue.hasRoom_eq {s t : State} (h : SameButNoValue s t) : t.hasRoom = s.hasRoom := by
  simp only [State.hasRoom, h.platform_eq, h.oq_eq]

theorem SameButNoValue.sampleTick {s t : State} (h : SameButNoValue s t) (hv : s.valid = true)
    (piece : Nat → Word → Word → Piece) : SameButNoValue (sampleTick piece s) (sampleTick piece t) := by
  unfold Machine.sampleTick
  rw [h.work_eq, h.hasRoom_eq, h.drawWord_eq hv, State.opCount, State.opCount, h.lN_eq]
  split
  · split
    · exact h.congr (State.emit _) (fun _ _ _ _ => rfl) id
    · exact h
  · split
    · split
      · exact (h.drawn hv).congr (State.due _) (fun _ _ _ _ => rfl) id
      · exact (h.drawn hv).congr (State.carry _ _) (fun _ _ _ _ => rfl) id
    · exact h.succeed

theorem SameButNoValue.sampleRun {s t : State} (h : SameButNoValue s t) (hv : s.valid = true)
    (piece : Nat → Word → Word → Piece) (n : Nat) : SameButNoValue (sampleRun piece n s) (sampleRun piece n t) := by
  induction n generalizing s t with
  | zero => exact h
  | succ n ih =>
    unfold Machine.sampleRun
    rw [h.phase_eq, State.stalled, State.stalled, h.work_eq, h.hasRoom_eq]
    split
    · have hv' : (Machine.sampleTick piece s).valid = true :=
        (congrArg State.valid (sampleTick_frame (piece := piece) s)).trans hv
      exact ih (h.sampleTick hv piece) hv'
    · exact h

theorem SameButNoValue.withAcquired {s t : State} (h : SameButNoValue s t) (zg : Bool) {done : Word → State → State}
    (hd : ∀ v u w, SameButNoValue u w → SameButNoValue (done v u) (done v w)) :
    SameButNoValue (withAcquired zg done s) (withAcquired zg done t) := by
  unfold Machine.withAcquired
  rw [h.work_eq, h.answers_eq]
  split
  · exact hd _ _ _ (h.arbiter _ _ _)
  · exact (h.arbiter _ _ _).raise _
  · exact h.arbiter _ _ _

theorem SameButNoValue.pcgSeedSecond {s t : State} (h : SameButNoValue s t) (first : Word) :
    SameButNoValue (pcgSeedSecond first s) (pcgSeedSecond first t) :=
  h.withAcquired false fun _ _ _ h => (h.installPcg _ _).succeed

theorem SameButNoValue.pcgSeedHw {s t : State} (h : SameButNoValue s t) :
    SameButNoValue (pcgSeedHw s) (pcgSeedHw t) := by
  unfold Machine.pcgSeedHw
  rw [h.work_eq]
  split
  · exact h.pcgSeedSecond _
  · exact h.withAcquired false fun v _ _ h => (h.keepFirst v).pcgSeedSecond v

theorem SameButNoValue.execConstruct {s t : State} (h : SameButNoValue s t) (k : BitVec 8) :
    SameOutcome (execConstruct k s) (execConstruct k t) := by
  have pcgDet : SameButNoValue (pcgSeedDet s) (pcgSeedDet t) := by
    simp only [pcgSeedDet, State.opSeed, h.lA_eq]
    exact (h.installPcg _ _).succeed
  have xsDet : SameButNoValue (xsSeedDet s) (xsSeedDet t) := by
    simp only [xsSeedDet, State.opSeed, h.lA_eq]
    exact (h.installXs _).succeed
  have xsHw : SameButNoValue (xsSeedHw s) (xsSeedHw t) := h.withAcquired true fun _ _ _ h => (h.installXs _).succeed
  unfold Machine.execConstruct
  rw [h.valid_eq, State.opSeed, State.opSeed, h.lA_eq]
  split
  · exact h.raise _
  · split
    · exact h.raise _
    · split
      · exact pcgDet
      · exact h.pcgSeedHw
    · split
      · exact xsDet
      · exact xsHw

theorem SameButNoValue.execDestroy {s t : State} (h : SameButNoValue s t) :
    SameOutcome (execDestroy s) (execDestroy t) := by
  unfold Machine.execDestroy
  rw [h.valid_eq]
  split
  · exact h.discard.succeed
  · exact h.raise _

theorem SameButNoValue.exec {s t : State} (h : SameButNoValue s t) (i : Instr) :
    SameOutcome (exec i s) (exec i t) := by
  by_cases hi : isSampling i = true
  · rw [exec_sampling hi, exec_sampling hi, h.valid_eq, h.slice_eq, operandsOk_congr i h.lA_eq h.lB_eq,
      pieceOf_congr i h.lA_eq h.lB_eq]
    split
    · rename_i hv
      split
      · exact h.sampleRun hv _ _
      · exact h.raise _
    · exact h.raise _
  · rcases not_sampling hi with rfl | ⟨k, rfl⟩
    · exact h.execDestroy
    · exact h.execConstruct k

theorem SameButNoValue.engineMove {s t : State} (h : SameButNoValue s t) :
    SameOutcome (engineMove Machine.exec s) (engineMove Machine.exec t) := by
  unfold Machine.engineMove
  rw [h.phase_eq, h.lCmd_eq]
  split
  · exact h
  · split
    · exact h.raise _
    · exact h.exec _

/-- A read gets the bus-error response in both states, or the same word from both. -/
theorem SameButNoValue.readReg {s t : State} (h : SameButNoValue s t) (r : Reg) :
    (readReg r s = none ∧ readReg r t = none) ∨
    ∃ v s' t', readReg r s = some (v, s') ∧ readReg r t = some (v, t') ∧ SameButNoValue s' t' := by
  have ht : t = { s with regS := t.regS, regInc := t.regInc, kind := t.kind } := h.1
  cases r with
  | cmd => exact .inl ⟨rfl, rfl⟩
  | arg0 => exact .inr ⟨s.arg0, s, t, rfl, by rw [ht]; rfl, h⟩
  | arg1 => exact .inr ⟨s.arg1, s, t, rfl, by rw [ht]; rfl, h⟩
  | count => exact .inr ⟨s.count, s, t, rfl, by rw [ht]; rfl, h⟩
  | status => exact .inr ⟨statusWord s, s, t, rfl, by rw [Machine.readReg, h.statusWord_eq], h⟩
  | dout =>
    simp only [Machine.readReg, h.oq_eq]
    cases s.oq with
    | nil => exact .inl ⟨rfl, rfl⟩
    | cons w ws => exact .inr ⟨w, _, _, rfl, rfl, h.congr State.popped (fun _ _ _ _ => rfl) id⟩

theorem SameButNoValue.hostRead {s t : State} (h : SameButNoValue s t) (addr width : Nat) :
    SameOutcome (hostRead addr width s) (hostRead addr width t) := by
  unfold Machine.hostRead memRead
  rw [h.platform_eq]
  cases regAt s.platform.base addr width with
  | none =>
    simp only
    split <;> rfl
  | some r =>
    simp only
    rcases h.readReg r with ⟨hs, ht⟩ | ⟨v, s', t', hs, ht, h'⟩ <;> rw [hs, ht]
    · rfl
    · exact h'.observe _ _

theorem SameButNoValue.writeReg {s t : State} (h : SameButNoValue s t) (r : Reg) (v : Word) :
    SameButNoValue (writeReg r v s) (writeReg r v t) := by
  refine h.congr (Machine.writeReg r v) (fun _ _ _ _ => ?_) ?_
  · cases r <;> rfl
  · cases r <;> exact id

theorem SameButNoValue.hostWrite {s t : State} (h : SameButNoValue s t) (addr : Nat) (bytes : List Byte) :
    SameOutcome (hostWrite addr bytes s) (hostWrite addr bytes t) := by
  unfold Machine.hostWrite
  rw [h.platform_eq, h.phase_eq]
  split
  · split
    · rfl
    · exact h.writeReg _ _
  · split <;> rfl

theorem SameButNoValue.waitMove {s t : State} (h : SameButNoValue s t) (popping : Bool) (rest : List Event) :
    SameOutcome (waitMove Machine.exec popping rest s) (waitMove Machine.exec popping rest t) := by
  have hrest := h.congr (fun u => { u with script := rest }) (fun _ _ _ _ => rfl) id
  unfold Machine.waitMove
  generalize { s with script := rest } = s' at hrest ⊢
  generalize { t with script := rest } = t' at hrest ⊢
  rw [h.phase_eq, h.statusWord_eq, State.oavail, State.oavail, h.oq_eq, h.platform_eq]
  split
  · exact hrest.observe _ _
  · split
    · exact h.hostRead _ _
    · exact h.engineMove

/-- Settles O59: every mover keeps the relation: nothing reads S, INC or KIND while VALID = 0, or INC under XS64,
and CONSTRUCT writes every register that then holds a value. -/
theorem noValueIsNeverObserved : Obligations.NoValueIsNeverObserved := by
  intro s t h
  unfold step stepWith
  rw [h.script_eq]
  cases s.script with
  | nil => exact h.engineMove
  | cons e rest =>
    have next := h.congr (fun u => { u with script := rest }) (fun _ _ _ _ => rfl) id
    cases e with
    | read addr width => exact next.hostRead addr width
    | write addr bytes => exact next.hostWrite addr bytes
    | wait popping => exact h.waitMove popping rest
    | engine n =>
      exact (h.congr (fun u => { u with script := rest, slice := n }) (fun _ _ _ _ => rfl) id).engineMove
    | entropy a => exact next.congr (State.answered a) (fun _ _ _ _ => rfl) id
    | noAnswer => exact next.congr State.unanswered (fun _ _ _ _ => rfl) id
    | reset => exact next.resetBlock

end Sys2Proof.Machine

namespace Sys2Proof.Machine

/-! ### Operand registers and frames of the commands -/

/-- The state with other contents of the operand registers. -/
def State.withOperands (x y z : Word) (s : State) : State := { s with arg0 := x, arg1 := y, count := z }

theorem sampleRun_withOperands (piece : Nat → Word → Word → Piece) (x y z : Word) (n : Nat) (s : State) :
    sampleRun piece n (s.withOperands x y z) = (sampleRun piece n s).withOperands x y z :=
  sampleRun_comm (State.withOperands x y z) (fun _ => rfl) (fun _ => rfl)
    (sampleTick_comm (State.withOperands x y z) (fun _ => rfl) (fun _ => rfl) (fun _ => rfl) (fun _ => rfl)
      (fun _ _ => rfl) (fun _ _ => rfl) (fun _ _ _ => rfl) (fun _ => rfl)) n s

theorem sampling_withOperands {i : Instr} (hi : isSampling i = true) (x y z : Word) {s t : State}
    (h : exec i s = .next t) : exec i (s.withOperands x y z) = .next (t.withOperands x y z) := by
  rcases sampling_cases hi h with ⟨hv, ho, rfl⟩ | ⟨hv, ho, rfl⟩ | ⟨hv, rfl⟩
  · have ho' := (operandsOk_congr (s := s) (t := s.withOperands x y z) i rfl rfl).trans ho
    rw [exec_of_operandsOk (s := s.withOperands x y z) hi hv ho',
      pieceOf_congr (s := s) (t := s.withOperands x y z) i rfl rfl, sampleRun_withOperands]
    rfl
  · have ho' := (operandsOk_congr (s := s) (t := s.withOperands x y z) i rfl rfl).trans ho
    exact exec_of_not_operandsOk (s := s.withOperands x y z) hi hv ho'
  · exact exec_of_not_valid (s := s.withOperands x y z) hi hv

theorem destroy_withOperands (x y z : Word) {s t : State} (h : exec .destroy s = .next t) :
    exec .destroy (s.withOperands x y z) = .next (t.withOperands x y z) := by
  rcases destroy_cases h with ⟨hv, rfl⟩ | ⟨hv, rfl⟩
  · exact destroy_of_valid (s := s.withOperands x y z) hv
  · exact destroy_of_not_valid (s := s.withOperands x y z) hv

theorem construct_withOperands (k : BitVec 8) (x y z : Word) {s t : State} (h : exec (.construct k) s = .next t) :
    exec (.construct k) (s.withOperands x y z) = .next (t.withOperands x y z) :=
  construct_comm (State.withOperands x y z) (fun _ => rfl) (fun _ => rfl) (fun _ => rfl) (fun _ => rfl)
    (fun _ _ _ _ => rfl) (fun _ _ => rfl) (fun _ _ => rfl) (fun _ _ => rfl) (fun _ _ _ => rfl) (fun _ => rfl) k h

/-- Settles O10: a change of the operand registers passes through every command. -/
theorem commandsReadOnlyLatches : Obligations.CommandsReadOnlyLatches := by
  intro i s t x y z h
  by_cases hi : isSampling i = true
  · exact sampling_withOperands hi x y z h
  · rcases not_sampling hi with rfl | ⟨k, rfl⟩
    · exact destroy_withOperands x y z h
    · exact construct_withOperands k x y z h

/-- Settles O12, by what each command does. -/
theorem commandFrame : Obligations.CommandFrame := by
  intro i s t h
  cases exec_effect h with
  | samples hi =>
    refine ⟨by simp, by simp, by simp, by simp, ?_⟩
    rintro (rfl | ⟨k, rfl⟩) <;> simp [isSampling] at hi
  | discards hi => simp [hi]
  | buildsPcg k _ _ _ _ hi => simp [hi]
  | buildsXs k _ _ _ hi => simp [hi]
  | waits k _ _ hi => simp [hi]
  | exhausts k _ _ hi => simp [hi]
  | fails => simp

end Sys2Proof.Machine

namespace Sys2Proof.Machine

/-! ### The host's accesses -/

theorem step_of_read {s : State} {addr width : Nat} {rest : List Event} (h : s.script = .read addr width :: rest) :
    step s = hostRead addr width { s with script := rest } := by
  rw [step, stepWith, h]

theorem step_of_write {s : State} {addr : Nat} {bytes : List Byte} {rest : List Event}
    (h : s.script = .write addr bytes :: rest) : step s = hostWrite addr bytes { s with script := rest } := by
  rw [step, stepWith, h]

theorem step_of_reset {s : State} {rest : List Event} (h : s.script = .reset :: rest) :
    step s = .next (State.resetBlock { s with script := rest }) := by
  rw [step, stepWith, h]

theorem hostRead_of_readReg {s s' : State} {r : Reg} {v : Word} (h : readReg r s = some (v, s')) :
    hostRead (regAddr s.platform.base r) 8 s = .next (s'.observe r v) := by
  simp only [hostRead, memRead, regAt_regAddr, h]

theorem inWindow_regAddr (base : Nat) (r : Reg) : inWindow base (regAddr base r) = true := by
  cases r <;> simp [inWindow, regAddr, regIndex]

theorem hostRead_of_readReg_none {s : State} {r : Reg} (h : readReg r s = none) :
    hostRead (regAddr s.platform.base r) 8 s = .fault (.busError (regAddr s.platform.base r)) := by
  simp only [hostRead, memRead, regAt_regAddr, h]

theorem regAddr_injective (base : Nat) : Function.Injective (regAddr base) := by
  intro r r' h
  have e := regAt_regAddr base r
  rw [h, regAt_regAddr] at e
  exact (Option.some.inj e).symm

/-- A write that starts at a register the host may not write gets the bus-error response, whatever its width. -/
theorem hostWrite_of_not_writable {s : State} {r : Reg} (h : writable r = false) (bytes : List Byte) :
    hostWrite (regAddr s.platform.base r) bytes s = .fault (.busError (regAddr s.platform.base r)) := by
  have target : writeTarget s.platform.base (regAddr s.platform.base r) bytes.length = none := by
    unfold writeTarget
    split
    · rename_i r' hr
      rw [← regAddr_injective _ (regAt_some hr).2, h, if_neg Bool.false_ne_true]
    · rfl
  simp only [hostWrite, target, inWindow_regAddr, if_true]

theorem hostWrite_of_writable {s : State} {r : Reg} (h : writable r = true) (hp : s.phase = .idle) {bytes : List Byte}
    (hl : bytes.length = 8) :
    hostWrite (regAddr s.platform.base r) bytes s = .next (writeReg r (wordOfBytes bytes) s) := by
  simp only [hostWrite, writeTarget, hl, regAt_regAddr, h, if_true, hp]

theorem wordOfBytes_getLsbD (bytes : List Byte) {i : Nat} (hi : i < 64) :
    (wordOfBytes bytes).getLsbD i = (bytes[i / 8]?.getD 0).getLsbD (i % 8) := by
  induction bytes generalizing i with
  | nil => simp [wordOfBytes]
  | cons b bs ih =>
    simp only [wordOfBytes, BitVec.getLsbD_or, BitVec.getLsbD_shiftLeft, BitVec.getLsbD_setWidth, hi, decide_true,
      Bool.true_and]
    by_cases h8 : i < 8
    · simp [h8, Nat.div_eq_of_lt h8, Nat.mod_eq_of_lt h8]
    · rw [ih (by omega), BitVec.getLsbD_of_ge b i (by omega), show i / 8 = (i - 8) / 8 + 1 by omega,
        show (i - 8) % 8 = i % 8 by omega]
      simp [h8]

theorem wordOfBytes_bytesOfWord (v : Word) : wordOfBytes (bytesOfWord v) = v := by
  refine BitVec.eq_of_getLsbD_eq fun i hi => ?_
  have hb : (bytesOfWord v)[i / 8]? = some (v.extractLsb' (8 * (i / 8)) 8) := by
    simp [bytesOfWord, show i / 8 < 8 by omega]
  rw [wordOfBytes_getLsbD _ hi, hb, Option.getD_some, BitVec.getLsbD_extractLsb', Nat.div_add_mod]
  simp [Nat.mod_lt]

/-! ### STATUS -/

/-- STATUS bit by bit: the views of R35 at their places. -/
theorem statusWord_getLsbD (s : State) (i : Nat) : (statusWord s).getLsbD i =
    ((codeBits s.code).getLsbD i || (decide (i = 8) && s.busy) || (decide (i = 9) && s.valid) ||
      (decide (i = 10) && s.oavail) || (decide (16 ≤ i) && s.kindView.getLsbD (i - 16))) := by
  by_cases hi : i < 64
  · have flag (n : Nat) (b : Bool) :
        (!decide (i < n) && (decide (i - n < 64) && (decide (i - n = 0) && b))) = (decide (i = n) && b) := by
      by_cases h : i = n
      · simp [h]
      · cases b <;> simp [h]; omega
    simp only [statusWord, BitVec.getLsbD_or, BitVec.getLsbD_shiftLeft, BitVec.getLsbD_setWidth, BitVec.getLsbD_ofBool,
      hi, decide_true, Bool.true_and, flag, show i - 16 < 64 by omega]
    simp only [← decide_not, Nat.not_lt]
  · rw [BitVec.getLsbD_of_ge _ _ (by omega), BitVec.getLsbD_of_ge (codeBits s.code) _ (by omega),
      BitVec.getLsbD_of_ge s.kindView _ (by omega)]
    simp; omega

theorem statusWord_code (s : State) : (statusWord s).extractLsb' 0 4 = codeBits s.code := by
  refine BitVec.eq_of_getLsbD_eq fun i hi => ?_
  rw [BitVec.getLsbD_extractLsb', statusWord_getLsbD]
  interval_cases i <;> simp

theorem statusWord_kind (s : State) : (statusWord s).extractLsb' 16 8 = s.kindView := by
  refine BitVec.eq_of_getLsbD_eq fun i hi => ?_
  rw [BitVec.getLsbD_extractLsb', statusWord_getLsbD]
  interval_cases i <;> simp

theorem statusWord_reserved {start len : Nat} (s : State)
    (h : ∀ i < len, (4 ≤ start + i ∧ start + i < 8) ∨ (11 ≤ start + i ∧ start + i < 16) ∨ 24 ≤ start + i) :
    (statusWord s).extractLsb' start len = 0 := by
  refine BitVec.eq_of_getLsbD_eq fun i hi => ?_
  have := h i hi
  rw [BitVec.getLsbD_extractLsb', statusWord_getLsbD, BitVec.getLsbD_of_ge (codeBits s.code) _ (by omega)]
  by_cases h24 : 24 ≤ start + i
  · rw [BitVec.getLsbD_of_ge s.kindView _ (by omega)]
    simp; omega
  · simp; omega

theorem statusWord_busy (s : State) : (statusWord s).getLsbD 8 = s.busy := by
  rw [statusWord_getLsbD]; simp

theorem statusWord_valid (s : State) : (statusWord s).getLsbD 9 = s.valid := by
  rw [statusWord_getLsbD]; simp

theorem statusWord_oavail (s : State) : (statusWord s).getLsbD 10 = s.oavail := by
  rw [statusWord_getLsbD]; simp


theorem step_read_status {s : State} {rest : List Event} (h : s.script = .read (s.platform.base + 0x20) 8 :: rest) :
    step s = .next
      { s with script := rest, observed := s.observed ++ [⟨.status, bytesOfWord (statusWord s)⟩] } := by
  rw [step_of_read h]
  exact hostRead_of_readReg (r := .status) (s := { s with script := rest }) rfl

theorem step_write_status {s : State} {bytes : List Byte} {rest : List Event}
    (h : s.script = .write (s.platform.base + 0x20) bytes :: rest) :
    step s = .fault (.busError (s.platform.base + 0x20)) := by
  rw [step_of_write h]
  exact hostWrite_of_not_writable (r := .status) (s := { s with script := rest }) rfl bytes

/-- CODE is as before and no command has completed, or the running command runs on, succeeds, or fails. -/
def CodeEffect (s t : State) : Prop :=
  ((t.phase = .idle → s.phase = .idle) ∧ t.code = s.code) ∨ s.phase = .run ∧ RunsOrCompletes s t

theorem step_codeEffect {s t : State} (h : step s = .next t) :
    (∃ rest, s.script = .reset :: rest) ∨ CodeEffect s t := by
  have key := step_induct CodeEffect
    (script := fun _ _ _ _ h => h) (rests := fun _ => .inl ⟨id, rfl⟩) (observes := fun _ _ _ => .inl ⟨id, rfl⟩)
    (pops := fun _ _ _ _ => .inl ⟨id, rfl⟩) (accepts := fun _ _ h => .inl ⟨fun _ => h, rfl⟩)
    (operands := fun _ _ _ _ => .inl ⟨id, rfl⟩) (answers := fun _ _ _ => .inl ⟨id, rfl⟩)
    (illegal := fun _ h => .inr ⟨h, .inr (.inr ⟨rfl, by simp, rfl⟩)⟩)
    (commands := fun _ _ _ hp _ he => .inr ⟨hp, exec_runsOrCompletes hp he⟩) h
  rcases key with ⟨rest, _, _, hs, _⟩ | key
  · exact .inl ⟨rest, hs⟩
  · exact .inr key

theorem codeBits_eq_zero_iff (c : ResultCode) : codeBits c = 0 ↔ c = .success := by
  cases c <;> decide

theorem step_changes_code {s t : State} (h : step s = .next t) (hc : t.code ≠ s.code) :
    (s.phase = .run ∧ t.phase = .idle) ∨ ∃ rest, s.script = .reset :: rest := by
  rcases step_codeEffect h with hr | ⟨_, he⟩ | ⟨hp, ⟨_, he, _⟩ | ⟨hi, _⟩ | ⟨hi, _⟩⟩
  · exact .inr hr
  · exact absurd he hc
  · exact absurd he hc
  · exact .inl ⟨hp, hi⟩
  · exact .inl ⟨hp, hi⟩

theorem step_completes {s t : State} (h : step s = .next t) (hs : s.phase = .run) (ht : t.phase = .idle)
    (hr : ∀ rest, s.script ≠ .reset :: rest) :
    (t.failed = s.failed ∧ codeBits t.code = 0) ∨ (t.failed = s.failed ++ [t.code] ∧ codeBits t.code ≠ 0) := by
  rcases step_codeEffect h with ⟨rest, he⟩ | ⟨hi, _⟩ | ⟨_, ⟨hp, _⟩ | ⟨_, hc, hf⟩ | ⟨_, hc, hf⟩⟩
  · exact absurd he (hr rest)
  · rw [hi ht] at hs; cases hs
  · rw [hp] at ht; cases ht
  · exact .inl ⟨hf, (codeBits_eq_zero_iff _).2 hc⟩
  · exact .inr ⟨hf, mt (codeBits_eq_zero_iff _).1 hc⟩

/-- Settles O15, from the bits of the STATUS word, the rules of a host access, and what a completing command writes. -/
theorem statusShowsItsFields : Obligations.StatusShowsItsFields := by
  refine ⟨fun s => ⟨statusWord_code s, statusWord_reserved s (by omega), ?_, statusWord_valid s, ?_,
    statusWord_reserved s (by omega), statusWord_kind s, statusWord_reserved s (by omega)⟩, fun _ _ => step_read_status,
    fun _ _ _ => step_write_status, fun _ _ => step_changes_code, fun _ _ => step_completes⟩
  · rw [statusWord_busy]; simp [State.busy]
  · rw [statusWord_oavail]; simp [State.oavail]

/-! ### DOUT and the operand registers -/

theorem readReg_dout_cons {s : State} {w : Word} {ws : List Word} (h : s.oq = w :: ws) :
    readReg .dout s = some (w, s.popped) := by
  simp only [readReg, h]

theorem readReg_dout_nil {s : State} (h : s.oq = []) : readReg .dout s = none := by
  simp only [readReg, h]

/-- Settles O17: DOUT is at offset 0x28, and the host may not write it. -/
theorem doutPopsTheHead : Obligations.DoutPopsTheHead := by
  intro s rest
  refine ⟨fun h => ⟨fun w ws ho => ?_, fun ho => ?_⟩, fun bytes h => ?_⟩
  · rw [step_of_read h, show ws = s.oq.tail by rw [ho]; rfl]
    exact hostRead_of_readReg (r := .dout) (s := { s with script := rest }) (readReg_dout_cons ho)
  · rw [step_of_read h]
    exact hostRead_of_readReg_none (r := .dout) (s := { s with script := rest }) (readReg_dout_nil ho)
  · rw [step_of_write h]
    exact hostWrite_of_not_writable (r := .dout) (s := { s with script := rest }) rfl bytes

section
variable {r : Reg} (hr : r = .arg0 ∨ r = .arg1 ∨ r = .count) (v : Word) (s : State)
include hr

theorem operand_writeReg_same : (writeReg r v s).operand r = some v := by
  rcases hr with rfl | rfl | rfl <;> rfl

theorem operand_writeReg_other {r' : Reg} (h : r' ≠ r) : (writeReg r v s).operand r' = s.operand r' := by
  rcases hr with rfl | rfl | rfl <;> cases r' <;> simp_all [writeReg, State.operand]

theorem writeReg_operand_frame : writeReg r v s = { s with
    arg0 := (writeReg r v s).arg0, arg1 := (writeReg r v s).arg1, count := (writeReg r v s).count } := by
  rcases hr with rfl | rfl | rfl <;> rfl

theorem writable_operand : writable r = true := by
  rcases hr with rfl | rfl | rfl <;> rfl

end

theorem readReg_of_operand {r : Reg} {v : Word} {s : State} (h : s.operand r = some v) : readReg r s = some (v, s) := by
  cases r <;> simp [State.operand] at h <;> simp [readReg, h]

/-- Settles O16, with the write and the read each as one access. -/
theorem operandRegistersReadBack : Obligations.OperandRegistersReadBack := by
  intro s r v rest hr hp h
  let u : State := { s with script := readEvent s.platform.base r :: rest }
  have hw : step s = .next (writeReg r v u) := by
    rw [step_of_write h]
    exact (hostWrite_of_writable (s := u) (writable_operand hr) hp (bytesOfWord_length v)).trans
      (by rw [wordOfBytes_bytesOfWord])
  have hframe := writeReg_operand_frame hr v u
  have hsame := operand_writeReg_same hr v u
  refine ⟨_, hw, hsame, fun r' hne => operand_writeReg_other hr v u hne, ?_, ?_⟩
  · rw [hframe]
  · generalize writeReg r v u = t at hframe hsame
    have hscript : t.script = readEvent s.platform.base r :: rest := by rw [hframe]
    have hplatform : t.platform = s.platform := by rw [hframe]
    have hobserved : t.observed = s.observed := by rw [hframe]
    rw [step_of_read hscript, ← hplatform, ← hobserved]
    exact hostRead_of_readReg (s := { t with script := rest }) (readReg_of_operand hsame)

end Sys2Proof.Machine

namespace Sys2Proof.Machine

/-! ### The reset state -/

/-- Settles O13. -/
theorem resetStateIsAsListed : Obligations.ResetStateIsAsListed :=
  ⟨rfl, rfl, rfl, rfl, rfl, rfl, rfl, by decide⟩

/-- Settles O51: after reset VALID is 0, no code has been raised, and OQ is empty. -/
theorem invariantsHoldAtReset : Obligations.InvariantsHoldAtReset := by
  have code : CodeInv State.reset := ⟨by decide, by decide⟩
  have inv (p : Platform) : let s := { State.reset with platform := p }; InstanceInv s ∧ CodeInv s ∧ QueueInv s :=
    ⟨fun hv => (by cases hv), code, fun d _ => Nat.zero_le d⟩
  exact ⟨inv State.reset.platform, inv⟩

/-! ### The output queue -/

/-- OQ is unchanged, or grows at its tail while a sampling command runs, or loses its head to the host. -/
def QueueEffect (s t : State) : Prop :=
  t.oq = s.oq ∨
  (∃ ws i, t.oq = s.oq ++ ws ∧ s.phase = .run ∧ decode s.lCmd = .ok i ∧
    (i = .next ∨ i = .rand ∨ i = .bias ∨ i = .unid)) ∨
  (∃ w, s.oq = w :: t.oq ∧ t.observed = s.observed ++ [⟨.dout, bytesOfWord w⟩])

theorem exec_queueEffect {i : Instr} {s t : State} (hp : s.phase = .run) (hd : decode s.lCmd = .ok i)
    (he : exec i s = .next t) : QueueEffect s t := by
  cases exec_effect he with
  | samples hi =>
    obtain ⟨ws, h⟩ := sampleRun_appends (piece := pieceOf i s) s.slice s
    exact .inr (.inl ⟨ws, i, h, hp, hd, (isSampling_iff i).1 hi⟩)
  | discards | buildsPcg | buildsXs | waits | exhausts | fails => exact .inl rfl

/-- Settles O54. -/
theorem queueIsFirstInFirstOut : Obligations.QueueIsFirstInFirstOut := by
  intro s t h
  have key := step_induct QueueEffect
    (script := fun _ _ _ _ h => h) (rests := fun _ => .inl rfl) (observes := fun _ _ _ => .inl rfl)
    (pops := fun s w ws ho => .inr (.inr ⟨w, by simp [ho], rfl⟩)) (accepts := fun _ _ _ => .inl rfl)
    (operands := fun _ _ _ _ => .inl rfl) (answers := fun _ _ _ => .inl rfl) (illegal := fun _ _ => .inl rfl)
    (commands := fun _ _ _ hp hd he => exec_queueEffect hp hd he) h
  rcases key with ⟨rest, _, _, hs, rfl⟩ | hq | hq | hq
  · exact .inr (.inr (.inr ⟨rfl, rest, hs⟩))
  · exact .inl hq
  · exact .inr (.inl hq)
  · exact .inr (.inr (.inl hq))

/-! ### VALID, INC and KIND -/

/-- VALID is as before, or a CONSTRUCT has set it, or a DESTROY cleared it, with success. -/
def ValidEffect (s t : State) : Prop :=
  t.valid = s.valid ∨
  (s.phase = .run ∧ t.code = .success ∧ t.phase = .idle ∧
    (t.valid = true ∧ (∃ k, decode s.lCmd = .ok (.construct k)) ∨ t.valid = false ∧ decode s.lCmd = .ok .destroy))

theorem exec_validEffect {i : Instr} {s t : State} (hp : s.phase = .run) (hd : decode s.lCmd = .ok i)
    (he : exec i s = .next t) : ValidEffect s t := by
  cases exec_effect he with
  | samples => exact .inl (sampleRun_valid _ _ _)
  | discards hi => exact .inr ⟨hp, rfl, rfl, .inr ⟨rfl, hi ▸ hd⟩⟩
  | buildsPcg k _ _ _ _ hi => exact .inr ⟨hp, rfl, rfl, .inl ⟨rfl, k, hi ▸ hd⟩⟩
  | buildsXs k _ _ _ hi => exact .inr ⟨hp, rfl, rfl, .inl ⟨rfl, k, hi ▸ hd⟩⟩
  | waits | exhausts | fails => exact .inl rfl

theorem step_validEffect {s t : State} (h : step s = .next t) :
    (t.valid = false ∧ ∃ rest, s.script = .reset :: rest) ∨ ValidEffect s t := by
  have key := step_induct ValidEffect
    (script := fun _ _ _ _ h => h) (rests := fun _ => .inl rfl) (observes := fun _ _ _ => .inl rfl)
    (pops := fun _ _ _ _ => .inl rfl) (accepts := fun _ _ _ => .inl rfl) (operands := fun _ _ _ _ => .inl rfl)
    (answers := fun _ _ _ => .inl rfl) (illegal := fun _ _ => .inl rfl)
    (commands := fun _ _ _ hp hd he => exec_validEffect hp hd he) h
  rcases key with ⟨rest, _, _, hs, rfl⟩ | hv
  · exact .inl ⟨rfl, rest, hs⟩
  · exact .inr hv

theorem step_sets_valid {s t : State} (h : step s = .next t) (hs : s.valid = false) (ht : t.valid = true) :
    s.phase = .run ∧ ∃ k, decode s.lCmd = .ok (.construct k) ∧ t.code = .success ∧ t.phase = .idle := by
  rcases step_validEffect h with ⟨hv, _⟩ | hv | ⟨hp, hc, hi, ⟨_, k, hd⟩ | ⟨hv, _⟩⟩
  · simp [ht] at hv
  · simp [hs, ht] at hv
  · exact ⟨hp, k, hd, hc, hi⟩
  · simp [ht] at hv

theorem step_clears_valid {s t : State} (h : step s = .next t) (hs : s.valid = true) (ht : t.valid = false) :
    (s.phase = .run ∧ decode s.lCmd = .ok .destroy ∧ t.code = .success ∧ t.phase = .idle) ∨
      ∃ rest, s.script = .reset :: rest := by
  rcases step_validEffect h with ⟨_, hr⟩ | hv | ⟨hp, hc, hi, ⟨hv, _⟩ | ⟨_, hd⟩⟩
  · exact .inr hr
  · simp [hs, ht] at hv
  · simp [ht] at hv
  · exact .inl ⟨hp, hd, hc, hi⟩

/-- A CONSTRUCT on an empty block that completes has set VALID exactly if it succeeded. -/
theorem construct_valid_iff {k : BitVec 8} {s t : State} (hp : s.phase = .run) (hv : s.valid = false)
    (he : exec (.construct k) s = .next t) (ht : t.phase = .idle) : t.valid = true ↔ t.code = .success := by
  cases construct_effect he with
  | samples hi => cases hi
  | discards hi => cases hi
  | buildsPcg | buildsXs => exact ⟨fun _ => rfl, fun _ => rfl⟩
  | waits => exact absurd (hp.symm.trans ht) (by decide)
  | exhausts => simp [hv]
  | fails c hc => simp [hv, hc]

/-- Settles O55. -/
theorem onlyLifecycleChangesValid : Obligations.OnlyLifecycleChangesValid := by
  refine ⟨fun s t h => ⟨step_sets_valid h, step_clears_valid h⟩, fun _ _ _ => construct_valid_iff,
    fun s hv => ⟨_, destroy_of_valid hv, rfl, rfl, rfl⟩, fun s t rest hs h => ?_, statusWord_valid⟩
  rw [step_of_reset hs] at h
  rw [← Host.Outcome.next.inj h]
  rfl

/-- INC and KIND are as before if VALID is 1 before and after. -/
def KeepsIncAndKind (s t : State) : Prop := s.valid = true → t.valid = true → t.regInc = s.regInc ∧ t.kind = s.kind

theorem exec_keepsIncAndKind {i : Instr} {s t : State} (he : exec i s = .next t) : KeepsIncAndKind s t := by
  intro hs ht
  cases exec_effect he with
  | samples => exact ⟨sampleRun_regInc _ _ _, sampleRun_kind _ _ _⟩
  | discards => cases ht
  | buildsPcg _ _ _ _ _ _ hv | buildsXs _ _ _ _ _ hv => rw [hs] at hv; cases hv
  | waits | exhausts | fails => exact ⟨rfl, rfl⟩

/-- Settles O56: CONSTRUCT writes INC and KIND only where VALID was 0, and DESTROY clears VALID. -/
theorem incAndKindAreFixedForLife : Obligations.IncAndKindAreFixedForLife := by
  intro s t h
  have same {s t : State} (h : t.regInc = s.regInc ∧ t.kind = s.kind) : KeepsIncAndKind s t := fun _ _ => h
  have key := step_induct KeepsIncAndKind
    (script := fun _ _ _ _ h => h) (rests := fun _ => same ⟨rfl, rfl⟩) (observes := fun _ _ _ => same ⟨rfl, rfl⟩)
    (pops := fun _ _ _ _ => same ⟨rfl, rfl⟩) (accepts := fun _ _ _ => same ⟨rfl, rfl⟩)
    (operands := fun _ _ _ _ => same ⟨rfl, rfl⟩) (answers := fun _ _ _ => same ⟨rfl, rfl⟩)
    (illegal := fun _ _ => same ⟨rfl, rfl⟩) (commands := fun _ _ _ _ _ he => exec_keepsIncAndKind he) h
  rcases key with ⟨_, _, _, _, rfl⟩ | key
  · exact fun _ hv => by cases hv
  · exact key

end Sys2Proof.Machine

namespace Sys2Proof.Machine

/-! ### Back-pressure -/

/-- With a word due and OQ full, a sampling command whose checks pass stands still. -/
theorem exec_of_full {i : Instr} {s : State} {v : Word} {d : Nat} (hi : isSampling i = true) (hv : s.valid = true)
    (ho : operandsOk i s = true) (hpend : s.work.pending = some v) (hd : s.platform.outDepth = some d)
    (hfull : d ≤ s.oq.length) : exec i s = .next s := by
  have hst : s.stalled = true := by simp [State.stalled, State.hasRoom, hpend, hd, hfull]
  rw [exec_of_operandsOk hi hv ho, sampleRun_stalled _ _ hst]

theorem sampleRun_unread_idle (piece : Nat → Word → Word → Piece) (read : List Word) (n q : Nat) {s : State}
    (h : s.phase = .idle) : sampleRun piece n (s.unread read q) = s.unread read q := sampleRun_idle _ _ h

theorem sampleRun_unread_step (piece : Nat → Word → Word → Piece) (read : List Word) (n q : Nat) {s : State}
    (h : s.phase = .run) (hst : s.stalled = false) :
    sampleRun piece (n + 1) (s.unread read q) = sampleRun piece n ((sampleTick piece s).unread read q) := by
  rw [sampleRun_step n (s.unread read q) h (State.unread_not_stalled _ _ _), sampleTick_unread _ _ _ hst]

/-- A run that may have to wait is a shorter run on the unbounded queue. -/
theorem sampleRun_unread (piece : Nat → Word → Word → Piece) (read : List Word) (n : Nat) (s : State) :
    ∃ m, ∀ q, sampleRun piece m (s.unread read q) = (sampleRun piece n s).unread read q := by
  induction n generalizing s with
  | zero => exact ⟨0, fun _ => rfl⟩
  | succ n ih =>
    by_cases hc : s.phase = .run ∧ s.stalled = false
    · obtain ⟨hp, hst⟩ := hc
      obtain ⟨m, hm⟩ := ih (sampleTick piece s)
      exact ⟨m + 1, fun q => by rw [sampleRun_step _ _ hp hst, sampleRun_unread_step _ _ _ _ hp hst, hm]⟩
    · exact ⟨0, fun q => by rw [sampleRun, sampleRun, if_neg hc]⟩

theorem sampleTick_oq_length_le (piece : Nat → Word → Word → Piece) {s : State} (h : s.stalled = false) :
    (sampleTick piece s).oq.length ≤ s.oq.length + 1 := by
  rcases sampleTick_cases (piece := piece) s h with
    ⟨v, _, _, e⟩ | ⟨_, _, v, _, e⟩ | ⟨_, _, k, acc, _, e⟩ | ⟨_, _, e⟩ <;> rw [e] <;> simp

/-- The engine has been given this slice. -/
def State.withSlice (n : Nat) (s : State) : State := { s with slice := n }

/-- The host has popped at most `p` words. -/
def State.drained (p : Nat) (s : State) : State := { s with oq := s.oq.drop p }

theorem pieceOf_drained (i : Instr) (p : Nat) (s : State) : pieceOf i (s.drained p) = pieceOf i s :=
  pieceOf_congr i rfl rfl

theorem operandsOk_drained (i : Instr) (p : Nat) (s : State) : operandsOk i (s.drained p) = operandsOk i s :=
  operandsOk_congr i rfl rfl

theorem unread_drained (read : List Word) (p q : Nat) (s : State) :
    (s.drained p).unread (read ++ s.oq.take p) q = s.unread read q := State.unread_pop read p q s

/-- Once the command has completed, the rounds only move words from OQ to the words read. -/
theorem popRounds_of_idle {i : Instr} {rounds : List (Nat × Nat)} {s t : State} {read read' : List Word}
    (hp : s.phase = .idle) (h : popRounds i rounds s read = some (t, read')) (q : Nat) :
    t.unread read' q = s.unread read q := by
  induction rounds generalizing s read with
  | nil =>
    obtain ⟨rfl, rfl⟩ : s = t ∧ read = read' := by simpa [popRounds] using h
    rfl
  | cons r rounds ih =>
    obtain ⟨n, p⟩ := r
    rw [popRounds_idle hp] at h
    exact (ih (s := s.drained p) hp h).trans (unread_drained _ _ _ _)

section
variable {i : Instr} (hi : isSampling i = true)
include hi

/-- A sampling command either runs or fails, the same in every state with these latches and VALID. -/
theorem sampling_runs_or_raises (s : State) :
    (s.valid = true ∧ operandsOk i s = true) ∨
    ∃ c, ∀ t : State, t.valid = s.valid → t.lA = s.lA → t.lB = s.lB → exec i t = .next (t.raise c) := by
  cases hv : s.valid with
  | false => exact .inr ⟨_, fun t hvt _ _ => exec_of_not_valid hi hvt⟩
  | true =>
    cases ho : operandsOk i s with
    | false => exact .inr ⟨_, fun t hvt hA hB => exec_of_not_operandsOk hi hvt ((operandsOk_congr i hA hB).trans ho)⟩
    | true => exact .inl ⟨rfl, rfl⟩

theorem exec_of_same_latches {s t : State} (hv : t.valid = true) (hA : t.lA = s.lA) (hB : t.lB = s.lB)
    (ho : operandsOk i s = true) : exec i t = .next (sampleRun (pieceOf i s) t.slice t) := by
  rw [exec_of_operandsOk hi hv ((operandsOk_congr i hA hB).trans ho), pieceOf_congr i hA hB]

theorem exec_unbounded {s : State} (hv : s.valid = true) (ho : operandsOk i s = true) (n : Nat) :
    exec i (s.unbounded n) = .next (sampleRun (pieceOf i s) n (s.unread [] n)) :=
  exec_of_same_latches (t := s.unbounded n) hi hv rfl rfl ho

/-- One round of a running command whose checks pass: the engine's run, then the host's reads. -/
theorem popRounds_cons {n p : Nat} {rounds : List (Nat × Nat)} {s u : State} {read : List Word} (hp : s.phase = .run)
    (hv : s.valid = true) (ho : operandsOk i s = true) (hu : u = sampleRun (pieceOf i s) n (s.withSlice n)) :
    popRounds i ((n, p) :: rounds) s read = popRounds i rounds (u.drained p) (read ++ u.oq.take p) := by
  subst hu
  exact popRounds_run hp (exec_of_same_latches (t := s.withSlice n) hi hv rfl rfl ho)

/-- Rounds of a sampling command whose checks pass are one run on the unbounded queue. -/
theorem popRounds_eq_sampleRun {rounds : List (Nat × Nat)} {s t : State} {read read' : List Word}
    (hv : s.valid = true) (ho : operandsOk i s = true) (h : popRounds i rounds s read = some (t, read')) :
    ∃ n, ∀ q, sampleRun (pieceOf i s) n (s.unread read q) = t.unread read' q := by
  induction rounds generalizing s read with
  | nil =>
    obtain ⟨rfl, rfl⟩ : s = t ∧ read = read' := by simpa [popRounds] using h
    exact ⟨0, fun _ => rfl⟩
  | cons r rounds ih =>
    obtain ⟨n, p⟩ := r
    cases hp : s.phase with
    | idle => exact ⟨0, fun q => (popRounds_of_idle hp h q).symm⟩
    | run =>
      obtain ⟨u, hu⟩ : ∃ u, u = sampleRun (pieceOf i s) n (s.withSlice n) := ⟨_, rfl⟩
      have hvu : u.valid = true := by rw [hu, sampleRun_valid]; exact hv
      have hA : u.lA = s.lA := by rw [hu, sampleRun_lA]; rfl
      have hB : u.lB = s.lB := by rw [hu, sampleRun_lB]; rfl
      have hou : operandsOk i (u.drained p) = true := by rw [operandsOk_drained, operandsOk_congr i hA hB, ho]
      rw [popRounds_cons hi hp hv ho hu] at h
      obtain ⟨m₁, h₁⟩ := sampleRun_unread (pieceOf i s) read n (s.withSlice n)
      obtain ⟨m₂, h₂⟩ := ih (s := u.drained p) hvu hou h
      refine ⟨m₁ + m₂, fun q => ?_⟩
      calc sampleRun (pieceOf i s) (m₁ + m₂) (s.unread read q)
          = sampleRun (pieceOf i s) m₂ (sampleRun (pieceOf i s) m₁ ((s.withSlice n).unread read q)) :=
            sampleRun_add m₁ m₂ _
        _ = sampleRun (pieceOf i s) m₂ (u.unread read q) := by rw [h₁, hu]
        _ = t.unread read' q := by rw [← h₂, pieceOf_drained, pieceOf_congr i hA hB, unread_drained]

/-- What the rounds have done, the command does with an unbounded queue. -/
theorem exec_unbounded_of_popRounds {rounds : List (Nat × Nat)} {s t : State} {read : List Word} (hp : s.phase = .run)
    (hne : rounds ≠ []) (h : popRounds i rounds s [] = some (t, read)) :
    ∃ n, ∀ m, m = n ∨ (t.phase = .idle ∧ n ≤ m) → exec i (s.unbounded m) = .next (t.unread read m) := by
  rcases sampling_runs_or_raises hi s with ⟨hv, ho⟩ | ⟨c, hc⟩
  · obtain ⟨n, hn⟩ := popRounds_eq_sampleRun hi hv ho h
    refine ⟨n, fun m hm => ?_⟩
    rw [exec_unbounded hi hv ho]
    rcases hm with rfl | ⟨ht, hle⟩
    · rw [hn]
    · obtain ⟨k, rfl⟩ := Nat.exists_eq_add_of_le hle
      rw [sampleRun_add, hn, sampleRun_unread_idle _ _ _ _ ht]
  · obtain ⟨⟨n, p⟩, rounds, rfl⟩ := List.exists_cons_of_ne_nil hne
    rw [popRounds_run hp (hc (s.withSlice n) rfl rfl rfl)] at h
    refine ⟨0, fun m _ => (hc (s.unbounded m) rfl rfl rfl).trans (congrArg Host.Outcome.next ?_)⟩
    exact ((popRounds_of_idle rfl h m).trans (State.unread_pop _ _ _ _)).symm

/-- From an empty queue with some room, `n` rounds of one micro-operation and one read are `n` micro-operations on the
unbounded queue. -/
theorem exists_popRounds_of_oq_nil {d : Nat} (h0 : 0 < d) (n : Nat) {s : State} (read : List Word)
    (hd : s.platform.outDepth = some d) (hv : s.valid = true) (ho : operandsOk i s = true) (hq : s.oq = []) :
    ∃ t read', popRounds i (List.replicate n (1, 1)) s read = some (t, read') ∧
      ∀ q, t.unread read' q = sampleRun (pieceOf i s) n (s.unread read q) := by
  induction n generalizing s read with
  | zero => exact ⟨s, read, rfl, fun _ => rfl⟩
  | succ n ih =>
    rw [List.replicate_succ]
    cases hp : s.phase with
    | idle =>
      obtain ⟨t, read', ht, hu⟩ := ih (s := s.drained 1) (read ++ s.oq.take 1) hd hv
        ((operandsOk_drained i 1 s).trans ho) (by simp [State.drained, hq])
      refine ⟨t, read', (popRounds_idle hp).trans ht, fun q => ?_⟩
      rw [hu, unread_drained, sampleRun_unread_idle _ _ _ _ hp, sampleRun_unread_idle _ _ _ _ hp]
    | run =>
      have hst : (s.withSlice 1).stalled = false := by
        simp [State.stalled, State.hasRoom, State.withSlice, hd, hq, h0]
      obtain ⟨u, hu⟩ : ∃ u, u = sampleRun (pieceOf i s) 1 (s.withSlice 1) := ⟨_, rfl⟩
      have htick : u = sampleTick (pieceOf i s) (s.withSlice 1) := by
        exact hu.trans (sampleRun_step 0 (s.withSlice 1) hp hst)
      have hqu : (u.drained 1).oq = [] := by
        refine List.drop_eq_nil_of_le ?_
        rw [htick]
        exact (sampleTick_oq_length_le _ hst).trans (by simp [State.withSlice, hq])
      have hvu : u.valid = true := by rw [hu, sampleRun_valid]; exact hv
      have hdu : u.platform.outDepth = some d := by rw [hu, sampleRun_platform]; exact hd
      have hA : u.lA = s.lA := by rw [hu, sampleRun_lA]; rfl
      have hB : u.lB = s.lB := by rw [hu, sampleRun_lB]; rfl
      have hou : operandsOk i (u.drained 1) = true := by rw [operandsOk_drained, operandsOk_congr i hA hB, ho]
      obtain ⟨t, read', ht, hun⟩ := ih (s := u.drained 1) (read ++ u.oq.take 1) hdu hvu hou hqu
      refine ⟨t, read', (popRounds_cons hi hp hv ho hu).trans ht, fun q => ?_⟩
      calc t.unread read' q
          = sampleRun (pieceOf i s) n (u.unread read q) := by
            rw [hun, pieceOf_drained, pieceOf_congr i hA hB, unread_drained]
        _ = sampleRun (pieceOf i s) (n + 1) ((s.withSlice 1).unread read q) := by
            rw [sampleRun_unread_step (s := s.withSlice 1) _ _ _ _ hp hst, htick]

/-- With the queue drained first, the host's reads let the command do all that it does with an unbounded queue. -/
theorem exists_popRounds_of_unbounded {n d : Nat} {s u : State} (hp : s.phase = .run)
    (hd : s.platform.outDepth = some d) (h0 : 0 < d) (h : exec i (s.unbounded n) = .next u) :
    ∃ rounds t read, popRounds i rounds s [] = some (t, read) ∧ u = t.unread read n := by
  rcases sampling_runs_or_raises hi s with ⟨hv, ho⟩ | ⟨c, hc⟩
  · rw [exec_unbounded hi hv ho] at h
    have hou : operandsOk i ((s.withSlice 0).drained s.oq.length) = true :=
      (operandsOk_congr i rfl rfl).trans ho
    obtain ⟨t, read, ht, hu⟩ := exists_popRounds_of_oq_nil hi h0 n (s := (s.withSlice 0).drained s.oq.length)
      ([] ++ s.oq.take s.oq.length) hd hv hou List.drop_length
    refine ⟨(0, s.oq.length) :: List.replicate n (1, 1), t, read, (popRounds_cons hi hp hv ho rfl).trans ht, ?_⟩
    calc u = sampleRun (pieceOf i s) n ((s.withSlice 0).unread [] n) := (Host.Outcome.next.inj h).symm
      _ = t.unread read n := by
        rw [hu, pieceOf_drained, pieceOf_congr (s := s) (t := s.withSlice 0) i rfl rfl]
        exact congrArg _ (unread_drained [] s.oq.length n (s.withSlice 0)).symm
  · rw [hc (s.unbounded n) rfl rfl rfl] at h
    refine ⟨[(0, 0)], _, _, popRounds_run hp (hc (s.withSlice 0) rfl rfl rfl), ?_⟩
    exact (Host.Outcome.next.inj h).symm

end

/-- Settles O48: rounds with a bounded queue are a run on the unbounded queue, the words read put back before OQ. -/
theorem emitWaitsWhileQueueIsFull : Obligations.EmitWaitsWhileQueueIsFull := by
  refine ⟨fun s v d _ hv hpend hd hfull => ?_, fun i s hi hp => ?_⟩
  · have still {i : Instr} (hi : isSampling i = true) (ho : operandsOk i s = true) : exec i s = .next s :=
      exec_of_full hi hv ho hpend hd hfull
    exact ⟨still rfl rfl, still rfl rfl, fun h => still rfl (by simpa [operandsOk] using h), fun h => still rfl h⟩
  · have hi := (isSampling_iff i).2 hi
    exact ⟨fun rounds t read hne h => exec_unbounded_of_popRounds hi hp hne h,
      fun n d u hd h0 h => exists_popRounds_of_unbounded hi hp hd h0 h⟩

end Sys2Proof.Machine

namespace Sys2Proof.Machine

/-! ### Byte lanes -/

theorem bytesOfWord_getElem? (v : Word) {k : Nat} (hk : k < 8) :
    (bytesOfWord v)[k]? = some (v.extractLsb' (8 * k) 8) := by
  simp [bytesOfWord, hk]

/-- With `wordOfBytes_bytesOfWord`, the two directions of R57: eight bytes are the bytes of the word they make. -/
theorem bytesOfWord_wordOfBytes {bytes : List Byte} (hl : bytes.length = 8) :
    bytesOfWord (wordOfBytes bytes) = bytes := by
  refine List.ext_getElem (by rw [bytesOfWord_length, hl]) fun k hk hk' => ?_
  refine BitVec.eq_of_getLsbD_eq fun j hj => ?_
  have hb : (8 * k + j) / 8 = k ∧ (8 * k + j) % 8 = j := by omega
  have hk8 : 8 * k + j < 64 := by omega
  simp [bytesOfWord, wordOfBytes_getLsbD bytes hk8, hb, hj, hk']

section
variable (base : Nat) (r : Reg) (v : Word)

theorem laneByte_inside {k : Nat} (hk : k < 8) :
    laneByte base ⟨r, bytesOfWord v⟩ (regAddr base r + k) = some (v.extractLsb' (8 * k) 8) := by
  rw [laneByte, if_pos (Nat.le_add_right _ k), Nat.add_sub_cancel_left, bytesOfWord_getElem? v hk]

theorem laneByte_outside {addr : Nat} (h : addr < regAddr base r ∨ regAddr base r + 8 ≤ addr) :
    laneByte base ⟨r, bytesOfWord v⟩ addr = none := by
  unfold laneByte
  split
  · next hle => exact List.getElem?_eq_none (by rw [bytesOfWord_length]; simp only at hle ⊢; omega)
  · rfl

end

/-- Each register that may be read gives its value, and the read alone adds nothing to what the host has observed. -/
theorem exists_readReg {s : State} {r : Reg} {v : Word}
    (h : (r = .arg0 ∧ v = s.arg0) ∨ (r = .arg1 ∧ v = s.arg1) ∨ (r = .count ∧ v = s.count) ∨
      (r = .status ∧ v = statusWord s) ∨ (r = .dout ∧ s.oq.head? = some v)) :
    ∃ s', readReg r s = some (v, s') ∧ s'.observed = s.observed := by
  rcases h with ⟨rfl, rfl⟩ | ⟨rfl, rfl⟩ | ⟨rfl, rfl⟩ | ⟨rfl, rfl⟩ | ⟨rfl, h⟩
  case inr.inr.inr.inr =>
    obtain ⟨ws, hq⟩ := List.head?_eq_some_iff.1 h
    exact ⟨s.popped, readReg_dout_cons hq, rfl⟩
  all_goals exact ⟨s, rfl, rfl⟩

theorem writeReg_same {r : Reg} (hr : r = .cmd ∨ r = .arg0 ∨ r = .arg1 ∨ r = .count) (v : Word) (s : State) :
    if r = .cmd then (writeReg r v s).lCmd = v else (writeReg r v s).operand r = some v := by
  split
  · next h => rw [h]; rfl
  · next h => exact operand_writeReg_same (hr.resolve_left h) v s

theorem writable_iff (r : Reg) : writable r = true ↔ r = .cmd ∨ r = .arg0 ∨ r = .arg1 ∨ r = .count := by
  cases r <;> simp [writable]

/-- Settles O6: a read lays its register's value on the lanes by `bytesOfWord`, a write takes it off them by
`wordOfBytes`, and the two are inverse to each other. -/
theorem byteLanesAreLittleEndian : Obligations.ByteLanesAreLittleEndian := by
  refine ⟨fun v => ⟨wordOfBytes_bytesOfWord v, bytesOfWord_length v, fun k => bytesOfWord_getElem? v⟩, ?_, ?_⟩
  · intro s r v rest hv h
    obtain ⟨s', hread, hobs⟩ := exists_readReg (s := { s with script := rest }) hv
    refine ⟨s'.observe r v, ⟨r, bytesOfWord v⟩, ?_, ?_, fun k => laneByte_inside _ r v,
      fun addr => laneByte_outside _ r v⟩
    · rw [step_of_read h]
      exact hostRead_of_readReg hread
    · rw [State.observe_observed, hobs]
  · intro s r bytes rest hr hp hl h
    refine ⟨_, wordOfBytes bytes, ?_, writeReg_same hr _ { s with script := rest }, fun k hk => ?_⟩
    · rw [step_of_write h]
      exact hostWrite_of_writable (s := { s with script := rest }) ((writable_iff r).2 hr) hp hl
    · rw [← bytesOfWord_getElem? _ hk, bytesOfWord_wordOfBytes hl]

/-! ### Legal accesses -/

theorem regAt_eq_some_iff {base addr width : Nat} {r : Reg} :
    regAt base addr width = some r ↔ width = 8 ∧ addr = regAddr base r :=
  ⟨regAt_some, by rintro ⟨rfl, rfl⟩; exact regAt_regAddr base r⟩

theorem readReg_isSome_iff (r : Reg) (s : State) :
    (readReg r s).isSome = true ↔ r ≠ .cmd ∧ (r = .dout → s.oq ≠ []) := by
  cases r
  case dout => cases hq : s.oq <;> simp [readReg, hq]
  all_goals simp [readReg]

/-- R53's reads: those that select a register which gives a word. -/
theorem legalRead_iff {s : State} {addr width : Nat} :
    LegalRead s addr width ↔ ∃ r, regAt s.platform.base addr width = some r ∧ (readReg r s).isSome = true := by
  constructor
  · rintro ⟨hw, r, hc, ha, ho⟩
    exact ⟨r, regAt_eq_some_iff.2 ⟨hw, ha⟩, (readReg_isSome_iff r s).2 ⟨hc, ho⟩⟩
  · rintro ⟨r, hr, hs⟩
    obtain ⟨hw, ha⟩ := regAt_some hr
    obtain ⟨hc, ho⟩ := (readReg_isSome_iff r s).1 hs
    exact ⟨hw, r, hc, ha, ho⟩

/-- R53's writes: those that select a writable register. -/
theorem legalWrite_iff {s : State} {addr width : Nat} :
    LegalWrite s addr width ↔ ∃ r, regAt s.platform.base addr width = some r ∧ writable r = true := by
  constructor
  · rintro ⟨hw, r, hr, ha⟩
    exact ⟨r, regAt_eq_some_iff.2 ⟨hw, ha⟩, (writable_iff r).2 hr⟩
  · rintro ⟨r, hr, hwr⟩
    obtain ⟨hw, ha⟩ := regAt_some hr
    exact ⟨hw, r, (writable_iff r).1 hwr, ha⟩

theorem inWindow_iff (base addr : Nat) : inWindow base addr = true ↔ base ≤ addr ∧ addr < base + 64 := by
  simp [inWindow]

theorem inWindow_of_regAt {base addr width : Nat} {r : Reg} (h : regAt base addr width = some r) :
    inWindow base addr = true := by
  rw [(regAt_some h).2]
  exact inWindow_regAddr base r

/-- The fault that ends the run at an access the block does not answer (R54, log 7). -/
def accessFault (base addr : Nat) : Fault := if inWindow base addr then .busError addr else .outsideWindow addr

theorem accessFault_inside {base addr : Nat} (h : inWindow base addr = true) : accessFault base addr = .busError addr :=
  if_pos h

theorem accessFault_outside {base addr : Nat} (h : ¬ inWindow base addr = true) :
    accessFault base addr = .outsideWindow addr :=
  if_neg h

section
variable {s : State} {addr : Nat}

theorem hostRead_of_legal {width : Nat} (h : LegalRead s addr width) : ∃ t, hostRead addr width s = .next t := by
  obtain ⟨r, hr, hs⟩ := legalRead_iff.1 h
  obtain ⟨rfl, rfl⟩ := regAt_some hr
  obtain ⟨⟨v, s'⟩, hv⟩ := Option.isSome_iff_exists.1 hs
  exact ⟨s'.observe r v, hostRead_of_readReg hv⟩

theorem hostRead_of_not_legal {width : Nat} (h : ¬ LegalRead s addr width) :
    hostRead addr width s = .fault (accessFault s.platform.base addr) := by
  cases hr : regAt s.platform.base addr width with
  | none =>
    simp only [hostRead, hr]
    exact (apply_ite Host.Outcome.fault _ _ _).symm
  | some r =>
    have hn : readReg r s = none := Option.not_isSome_iff_eq_none.1 fun hs => h (legalRead_iff.2 ⟨r, hr, hs⟩)
    rw [accessFault_inside (inWindow_of_regAt hr)]
    obtain ⟨rfl, rfl⟩ := regAt_some hr
    exact hostRead_of_readReg_none hn

theorem hostWrite_of_legal {bytes : List Byte} (h : LegalWrite s addr bytes.length) (hp : s.phase = .idle) :
    ∃ t, hostWrite addr bytes s = .next t := by
  obtain ⟨r, hr, hw⟩ := legalWrite_iff.1 h
  obtain ⟨hl, rfl⟩ := regAt_some hr
  exact ⟨writeReg r (wordOfBytes bytes) s, hostWrite_of_writable hw hp hl⟩

theorem hostWrite_of_not_legal {bytes : List Byte} (h : ¬ LegalWrite s addr bytes.length) :
    hostWrite addr bytes s = .fault (accessFault s.platform.base addr) := by
  cases hr : regAt s.platform.base addr bytes.length with
  | none =>
    simp only [hostWrite, writeTarget, hr]
    exact (apply_ite Host.Outcome.fault _ _ _).symm
  | some r =>
    have hn : writable r = false := Bool.eq_false_iff.2 fun hw => h (legalWrite_iff.2 ⟨r, hr, hw⟩)
    rw [accessFault_inside (inWindow_of_regAt hr)]
    obtain ⟨-, rfl⟩ := regAt_some hr
    exact hostWrite_of_not_writable hn bytes

end

/-- Settles O18: legality is what the model selects a register by, and every other access ends in its one fault. -/
theorem onlyLegalAccessesAreAnswered : Obligations.OnlyLegalAccessesAreAnswered := by
  intro s addr rest hlo hhi
  have hf := accessFault_inside ((inWindow_iff _ _).2 ⟨hlo, hhi⟩)
  refine ⟨fun width h => ?_, fun bytes h => ?_⟩
  · rw [step_of_read h, ← hf]
    exact ⟨fun hl => hostRead_of_legal hl, fun hl => hostRead_of_not_legal hl⟩
  · rw [step_of_write h, ← hf]
    exact ⟨fun hl hp => hostWrite_of_legal hl hp, fun hl => hostWrite_of_not_legal hl⟩

/-- Settles O19: a legal access starts at a register, so none starts outside the window. -/
theorem accessOutsideWindowStops : Obligations.AccessOutsideWindowStops := by
  intro s addr rest hout
  have hw : ¬ inWindow s.platform.base addr = true := by rw [inWindow_iff]; omega
  refine ⟨fun width h => ?_, fun bytes h => ?_⟩
  · rw [step_of_read h, ← accessFault_outside hw]
    refine hostRead_of_not_legal fun hl => ?_
    obtain ⟨_, hr, _⟩ := legalRead_iff.1 hl
    exact hw (inWindow_of_regAt hr)
  · rw [step_of_write h, ← accessFault_outside hw]
    refine hostWrite_of_not_legal fun hl => ?_
    obtain ⟨_, hr, _⟩ := legalWrite_iff.1 hl
    exact hw (inWindow_of_regAt hr)

end Sys2Proof.Machine

namespace Sys2Proof.Machine

/-! ### The encoding: the three fields of a word by its number (R70), and the words whose fields are a command's -/

theorem opcodeField_toNat (w : Word) : (opcodeField w).toNat = w.toNat % 2 ^ 8 := by
  simp [opcodeField]

theorem kindField_toNat (w : Word) : (kindField w).toNat = w.toNat / 2 ^ 8 % 2 ^ 8 := by
  simp [kindField, Nat.shiftRight_eq_div_pow]

theorem zeroField_eq_zero_iff (w : Word) : zeroField w = 0 ↔ w.toNat < 2 ^ 16 := by
  rw [← BitVec.toNat_inj]
  simp only [zeroField, BitVec.extractLsb'_toNat, Nat.shiftRight_eq_div_pow, BitVec.ofNat_eq_ofNat, BitVec.toNat_ofNat]
  omega

theorem encode_toNat (i : Instr) : (encode i).toNat = (opcodeOf i).toNat + (kindFieldOf i).toNat * 2 ^ 8 := by
  have hop := (opcodeOf i).isLt
  have hkind := (kindFieldOf i).isLt
  simp only [encode, BitVec.toNat_or, BitVec.toNat_shiftLeft, BitVec.toNat_setWidth, Nat.shiftLeft_eq]
  rw [Nat.mod_eq_of_lt (by omega), Nat.mod_eq_of_lt (by omega), Nat.mod_eq_of_lt (by omega), ← Nat.shiftLeft_eq,
    ← Nat.shiftLeft_add_eq_or_of_lt hop, Nat.add_comm]

/-- A command's word is the one word with the command's OPCODE and KIND fields and nothing above them. -/
theorem encode_eq_iff (i : Instr) (w : Word) :
    encode i = w ↔ zeroField w = 0 ∧ opcodeField w = opcodeOf i ∧ kindField w = kindFieldOf i := by
  have hop := (opcodeOf i).isLt
  have hkind := (kindFieldOf i).isLt
  rw [zeroField_eq_zero_iff, ← BitVec.toNat_inj, ← BitVec.toNat_inj, ← BitVec.toNat_inj, encode_toNat, opcodeField_toNat,
    kindField_toNat]
  omega

/-- The decoder answers a command exactly for the words that hold its fields. -/
theorem decode_eq_ok_iff (w : Word) (i : Instr) :
    decode w = .ok i ↔ zeroField w = 0 ∧ opcodeField w = opcodeOf i ∧ kindField w = kindFieldOf i := by
  constructor
  · intro h
    unfold decode at h
    split_ifs at h with hz hconstruct hk <;> cases h
    case pos => exact ⟨not_not.1 hz, hconstruct, rfl⟩
    all_goals exact ⟨not_not.1 hz, by assumption, not_not.1 hk⟩
  · rintro ⟨hz, hop, hk⟩
    cases i <;> simp [decode, hz, hop, hk, opcodeOf, kindFieldOf]

theorem decode_eq_ok_iff_encode (w : Word) (i : Instr) : decode w = .ok i ↔ encode i = w :=
  (decode_eq_ok_iff w i).trans (encode_eq_iff i w).symm

/-- Settles O2: the decoder's tests and the encoder describe the same word by its fields. -/
theorem decodeInvertsEncode : Obligations.DecodeInvertsEncode := fun i => (decode_eq_ok_iff_encode _ i).2 rfl

/-- Settles O3, the other direction of the same equivalence. -/
theorem encodeInvertsDecode : Obligations.EncodeInvertsDecode := fun w i => (decode_eq_ok_iff_encode w i).1

end Sys2Proof.Machine

namespace Sys2Proof.Machine

/-! ### The rows of the opcode map -/

/-- Settles O1, by evaluating the decoder on the ten words. -/
theorem writtenOutWordsDecode : Obligations.WrittenOutWordsDecode := by
  unfold Obligations.WrittenOutWordsDecode
  decide

/-- A statement about every command is one about CONSTRUCT with every identifier and one about each other command. -/
theorem forall_instr_iff {P : Instr → Prop} :
    (∀ i, P i) ↔ (∀ k, P (.construct k)) ∧ P .destroy ∧ P .next ∧ P .rand ∧ P .bias ∧ P .unid := by
  refine ⟨fun h => ⟨fun k => h _, h _, h _, h _, h _, h _⟩, ?_⟩
  rintro ⟨hconstruct, hdestroy, hnext, hrand, hbias, hunid⟩ (k | _)
  exacts [hconstruct k, hdestroy, hnext, hrand, hbias, hunid]

theorem decode_error_iff (w : Word) : (∃ e, decode w = .error e) ↔ ∀ i, decode w ≠ .ok i := by
  cases decode w <;> simp

section
variable (k : BitVec 8) (w : Word)

/-- The mask of CONSTRUCT's row keeps the ZERO and the OPCODE field. -/
theorem zeroField_and_constructMask : zeroField (w &&& rowMask (.construct k)) = zeroField w := by
  have hmask : (rowMask (.construct k)).extractLsb' 16 48 = BitVec.allOnes 48 := by simp only [rowMask]; decide
  rw [zeroField, BitVec.extractLsb'_and, hmask, BitVec.and_allOnes, zeroField]

theorem opcodeField_and_constructMask : opcodeField (w &&& rowMask (.construct k)) = opcodeField w := by
  have hmask : (rowMask (.construct k)).extractLsb' 0 8 = BitVec.allOnes 8 := by simp only [rowMask]; decide
  rw [opcodeField, BitVec.extractLsb'_and, hmask, BitVec.and_allOnes, opcodeField]

/-- CONSTRUCT's row leaves the KIND field free: it is the operand. -/
theorem decode_construct_iff_row :
    decode w = .ok (.construct k) ↔ w &&& rowMask (.construct k) = rowMatch (.construct k) ∧ k = kindField w := by
  constructor
  · intro h
    obtain ⟨_, _, hk⟩ := (decode_eq_ok_iff w _).1 h
    rw [← (decode_eq_ok_iff_encode w _).1 h] at hk ⊢
    exact ⟨Laws.EncodesItsRow.construct k, hk.symm⟩
  · rintro ⟨h, hk⟩
    have hz : zeroField w = 0 := by rw [← zeroField_and_constructMask k, h]; simp [zeroField, rowMatch]
    have hop : opcodeField w = 0x01#8 := by rw [← opcodeField_and_constructMask k, h]; simp [opcodeField, rowMatch]
    exact (decode_eq_ok_iff w _).2 ⟨hz, hop, hk.symm⟩

end

section
variable {i : Instr} (hi : ∀ k, i ≠ .construct k)
include hi

/-- The other rows have no bit free. -/
theorem rowMask_eq_allOnes : rowMask i = BitVec.allOnes 64 := by
  cases i
  case construct k => exact absurd rfl (hi k)
  all_goals decide

theorem encode_eq_rowMatch : encode i = rowMatch i := by
  cases i
  case construct k => exact absurd rfl (hi k)
  all_goals decide

theorem decode_eq_ok_iff_row (w : Word) : decode w = .ok i ↔ w &&& rowMask i = rowMatch i := by
  rw [decode_eq_ok_iff_encode, rowMask_eq_allOnes hi, BitVec.and_allOnes, encode_eq_rowMatch hi, eq_comm]

end

/-- Settles O4: a word is illegal when it decodes to no command, that is, when it matches no row. -/
theorem decodeSelectsTableRow : Obligations.DecodeSelectsTableRow := by
  intro w
  have construct (k) := decode_construct_iff_row k w
  have destroy := decode_eq_ok_iff_row (i := .destroy) nofun w
  have next := decode_eq_ok_iff_row (i := .next) nofun w
  have rand := decode_eq_ok_iff_row (i := .rand) nofun w
  have bias := decode_eq_ok_iff_row (i := .bias) nofun w
  have unid := decode_eq_ok_iff_row (i := .unid) nofun w
  refine ⟨construct, destroy, next, rand, bias, unid, ?_⟩
  rw [decode_error_iff, forall_instr_iff]
  simp [construct, destroy, next, rand, bias, unid, rowMask, rowMatch]

end Sys2Proof.Machine

namespace Sys2Proof.Machine

/-! ### The engine's move in a step -/

section
variable {s : State} {rest : List Event}

theorem step_of_nil (h : s.script = []) : step s = engineMove exec s := by
  rw [step, stepWith, h]

theorem step_of_engine {n : Nat} (h : s.script = .engine n :: rest) :
    step s = engineMove exec { s with script := rest, slice := n } := by
  rw [step, stepWith, h]

theorem step_of_wait {popping : Bool} (h : s.script = .wait popping :: rest) :
    step s = waitMove exec popping rest s := by
  rw [step, stepWith, h]

theorem step_of_wait_idle {popping : Bool} (h : s.script = .wait popping :: rest) (hp : s.phase = .idle) :
    step s = .next (State.observe .status (statusWord s) { s with script := rest }) := by
  rw [step_of_wait h, waitMove, hp]

theorem step_of_wait_engine {popping : Bool} (h : s.script = .wait popping :: rest) (hp : s.phase = .run)
    (hpop : (popping && s.oavail) = false) : step s = engineMove exec s := by
  rw [step_of_wait h, waitMove, hp, hpop]
  exact if_neg Bool.false_ne_true

theorem step_of_wait_pop (h : s.script = .wait true :: rest) (hp : s.phase = .run) (ho : s.oavail = true) :
    step s = hostRead (regAddr s.platform.base .dout) 8 s := by
  rw [step_of_wait h, waitMove, hp, ho]
  exact if_pos rfl

end

section
variable {run : Instr → State → Host.Outcome State Fault Refusal} {s : State}

theorem engineMove_of_idle (hp : s.phase = .idle) : engineMove run s = .next s := by
  rw [engineMove, hp]

theorem engineMove_of_command {i : Instr} (hp : s.phase = .run) (hd : decode s.lCmd = .ok i) :
    engineMove run s = run i s := by
  rw [engineMove, hp, hd]

theorem engineMove_of_illegal {e : IllegalWord} (hp : s.phase = .run) (hd : decode s.lCmd = .error e) :
    engineMove run s = .next (s.raise .illegalCommand) := by
  rw [engineMove, hp, hd]

end

/-- The words that decode: those of CONSTRUCT, whatever their KIND field, and those of the five other commands, whose KIND
field is zero. -/
theorem decode_error_iff_not_fields (w : Word) : (∃ e, decode w = .error e) ↔ ¬ (zeroField w = 0 ∧
    (opcodeField w = 0x01#8 ∨ opcodeField w ∈ [0x02#8, 0x10#8, 0x11#8, 0x12#8, 0x13#8] ∧ kindField w = 0)) := by
  rw [decode_error_iff, forall_instr_iff]
  by_cases hz : zeroField w = 0#48
  · simp [decode_eq_ok_iff, opcodeOf, kindFieldOf, hz, or_imp]
  · simp [decode_eq_ok_iff, hz]

/-- R74's three conditions. -/
theorem decode_error_iff_fields (w : Word) : (∃ e, decode w = .error e) ↔
    zeroField w ≠ 0 ∨
    opcodeField w ∉ [0x01#8, 0x02#8, 0x10#8, 0x11#8, 0x12#8, 0x13#8] ∨
    (opcodeField w ∈ [0x02#8, 0x10#8, 0x11#8, 0x12#8, 0x13#8] ∧ kindField w ≠ 0) := by
  rw [decode_error_iff_not_fields, List.mem_cons (b := 0x01#8)]
  by_cases hop : opcodeField w = 0x01#8
  · simp [hop]
  · rw [or_iff_right hop, or_iff_right hop]
    tauto

/-- Settles O5: an illegal word raises ILLEGAL_COMMAND wherever the engine moves. -/
theorem illegalWordsCompleteWithIllegalCommand : Obligations.IllegalWordsCompleteWithIllegalCommand := by
  refine ⟨decode_error_iff_fields, fun s e hp hd => ⟨fun h => ?_, fun popping rest h hpop => ?_, fun n rest h => ?_⟩⟩
  · rw [step_of_nil h, engineMove_of_illegal hp hd]
    rfl
  · rw [step_of_wait_engine h hp hpop, engineMove_of_illegal hp hd]
    rfl
  · rw [step_of_engine h]
    exact engineMove_of_illegal (s := { s with script := rest, slice := n }) hp hd

/-- Settles O7: in each of the three places the step is the engine's move. -/
theorem stepRunsDecodedCommand : Obligations.StepRunsDecodedCommand := by
  refine fun s i hp hd => ⟨fun h => ?_, fun n rest h => ?_, fun popping rest h hpop => ?_⟩
  · rw [step_of_nil h, engineMove_of_command hp hd]
  · rw [step_of_engine h]
    exact engineMove_of_command (s := { s with script := rest, slice := n }) hp hd
  · rw [step_of_wait_engine h hp hpop, engineMove_of_command hp hd]

/-- Settles O60: at rest the engine does nothing and WAIT reads STATUS; while RUN a WAIT that pops reads DOUT. -/
theorem idleBlockRests : Obligations.IdleBlockRests := by
  refine fun s => ⟨fun hp => ⟨fun h => ?_, fun popping rest h => ?_⟩, fun w ws rest hp h ho => ?_⟩
  · rw [step_of_nil h, engineMove_of_idle hp]
  · rw [step_of_wait_idle h hp]
    rfl
  · have hpop : s.popped = { s with oq := ws } := by rw [State.popped, ho, List.tail_cons]
    rw [step_of_wait_pop h hp (by rw [State.oavail, ho]; rfl), hostRead_of_readReg (readReg_dout_cons ho), hpop]
    rfl

/-! ### Assembler lines -/

/-- `W reg, v` of R79, to a register that may be written, while IDLE. -/
theorem step_of_writeEvent {s : State} {r : Reg} {v : Word} {rest : List Event} (hr : writable r = true)
    (hp : s.phase = .idle) (h : s.script = writeEvent s.platform.base r v :: rest) :
    step s = .next (writeReg r v { s with script := rest }) := by
  rw [step_of_write h]
  exact (hostWrite_of_writable (s := { s with script := rest }) hr hp (bytesOfWord_length v)).trans
    (by rw [wordOfBytes_bytesOfWord])

/-- Settles O8: the accepted write of CMD is `State.accept`. -/
theorem acceptedCmdWriteLatchesOperands : Obligations.AcceptedCmdWriteLatchesOperands :=
  fun _ _ _ hp h => step_of_writeEvent (r := .cmd) rfl hp h

/-- The state after the operand writes of a line. -/
def State.operandsWritten (ops : List (Reg × Nat)) (s : State) : State :=
  ops.foldl (fun u p => writeReg p.1 (BitVec.ofNat 64 p.2) u) s

/-- Writes of operand registers and then of CMD take a step each, and leave the rest of the script. -/
theorem stepsTo_writes (ops : List (Reg × Nat)) (hops : ∀ p ∈ ops, p.1 = .arg0 ∨ p.1 = .arg1 ∨ p.1 = .count)
    {s : State} {w : Word} {rest : List Event} (hp : s.phase = .idle)
    (h : s.script = ops.map (fun p => writeEvent s.platform.base p.1 (BitVec.ofNat 64 p.2)) ++
      writeEvent s.platform.base .cmd w :: rest) :
    stepsTo (ops.length + 1) s (State.accept w (State.operandsWritten ops { s with script := rest })) := by
  induction ops generalizing s with
  | nil => exact ⟨_, step_of_writeEvent (r := .cmd) rfl hp h, rfl⟩
  | cons p ops ih =>
    obtain ⟨r, n⟩ := p
    obtain ⟨hr, htail⟩ := List.forall_mem_cons.1 hops
    refine ⟨_, step_of_writeEvent (writable_operand hr) hp h, ?_⟩
    rcases hr with hr | hr | hr <;> cases hr <;> exact ih htail (s := writeReg _ _ _) hp rfl

theorem lineOperands_operand (l : Line) : ∀ p ∈ lineOperands l, p.1 = .arg0 ∨ p.1 = .arg1 ∨ p.1 = .count := by
  cases l <;> simp [lineOperands]

theorem stepsTo_expandLine {s : State} {l : Line} {popping : Bool} {rest : List Event} {w : Word} (hp : s.phase = .idle)
    (h : s.script = expandLine popping s.platform.base l ++ rest) (hw : encode (lineInstr l) = w) :
    stepsTo ((lineOperands l).length + 1) s
      (State.accept w (State.operandsWritten (lineOperands l) { s with script := .wait popping :: rest })) := by
  refine stepsTo_writes _ (lineOperands_operand l) hp ?_
  rw [h, expandLine, List.append_assoc, hw]
  rfl

theorem toNat_ofNat_of_fitsWord {n : Nat} (h : fitsWord n = true) : (BitVec.ofNat 64 n).toNat = n :=
  (BitVec.toNat_ofNat n 64).trans (Nat.mod_eq_of_lt (of_decide_eq_true h))

theorem encode_construct_toNat {kind : Nat} (h : kind < 256) :
    (encode (.construct (BitVec.ofNat 8 kind))).toNat = 0x01 + kind * 2 ^ 8 := by
  rw [encode_toNat, kindFieldOf, BitVec.toNat_ofNat, Nat.mod_eq_of_lt h, opcodeOf]
  rfl

theorem waitMustPop_iff (p : Platform) (l : Line) :
    waitMustPop p l = true ↔ ∃ d, p.outDepth = some d ∧ d < lineWords l := by
  unfold waitMustPop
  cases p.outDepth <;> simp

/-- Settles O9: each write of the expansion is a step, and the operand writes put each number into its register, where the
CMD write latches it. -/
theorem assemblerLineStartsItsCommand : Obligations.AssemblerLineStartsItsCommand := by
  refine ⟨fun s l popping rest hp hwf h => ?_, fun p l => ⟨rfl, ?_⟩⟩
  · intro started
    cases l with
    | construct kind seed =>
      simp only [Line.wellFormed, Bool.and_eq_true, decide_eq_true_eq] at hwf
      obtain ⟨hkind, hseed⟩ := hwf
      exact ⟨_, _, encode_construct_toNat hkind, toNat_ofNat_of_fitsWord hseed, stepsTo_expandLine hp h rfl,
        decodeInvertsEncode _⟩
    | destroy => exact stepsTo_expandLine hp h (encode_eq_rowMatch (i := .destroy) nofun)
    | next count =>
      exact ⟨_, toNat_ofNat_of_fitsWord hwf, stepsTo_expandLine hp h (encode_eq_rowMatch (i := .next) nofun)⟩
    | rand count min max =>
      simp only [Line.wellFormed, Bool.and_eq_true] at hwf
      obtain ⟨⟨hcount, hmin⟩, hmax⟩ := hwf
      exact ⟨_, _, _, toNat_ofNat_of_fitsWord hcount, toNat_ofNat_of_fitsWord hmin, toNat_ofNat_of_fitsWord hmax,
        stepsTo_expandLine hp h (encode_eq_rowMatch (i := .rand) nofun)⟩
    | bias count numerator exponent =>
      simp only [Line.wellFormed, Bool.and_eq_true] at hwf
      obtain ⟨⟨hcount, hnumerator⟩, hexponent⟩ := hwf
      exact ⟨_, _, _, toNat_ofNat_of_fitsWord hcount, toNat_ofNat_of_fitsWord hnumerator,
        toNat_ofNat_of_fitsWord hexponent, stepsTo_expandLine hp h (encode_eq_rowMatch (i := .bias) nofun)⟩
    | unid count =>
      exact ⟨_, toNat_ofNat_of_fitsWord hwf, stepsTo_expandLine hp h (encode_eq_rowMatch (i := .unid) nofun)⟩
  · rw [waitMustPop_iff]
    cases l <;> simp [lineWords]

end Sys2Proof.Machine

namespace Sys2Proof.Machine

/-! ### Ignored operands -/

/-- The state with other contents of the latches L_B and L_N, which CONSTRUCT ignores (R71). -/
def State.withLatchesBN (y z : Word) (s : State) : State := { s with lB := y, lN := z }

/-- The state with other contents of the latches L_A and L_B, which NEXT and UNID ignore (R71). -/
def State.withLatchesAB (x y : Word) (s : State) : State := { s with lA := x, lB := y }

theorem construct_withLatchesBN (k : BitVec 8) (y z : Word) {s t : State} (h : exec (.construct k) s = .next t) :
    exec (.construct k) (s.withLatchesBN y z) = .next (t.withLatchesBN y z) :=
  construct_comm (State.withLatchesBN y z) (fun _ => rfl) (fun _ => rfl) (fun _ => rfl) (fun _ => rfl)
    (fun _ _ _ _ => rfl) (fun _ _ => rfl) (fun _ _ => rfl) (fun _ _ => rfl) (fun _ _ _ => rfl) (fun _ => rfl) k h

theorem destroy_withLatches (x y z : Word) {s t : State} (h : exec .destroy s = .next t) :
    exec .destroy { s with lA := x, lB := y, lN := z } = .next { t with lA := x, lB := y, lN := z } := by
  rcases destroy_cases h with ⟨hv, rfl⟩ | ⟨hv, rfl⟩
  · exact destroy_of_valid (s := { s with lA := x, lB := y, lN := z }) hv
  · exact destroy_of_not_valid (s := { s with lA := x, lB := y, lN := z }) hv

theorem sampleRun_withLatchesAB (piece : Nat → Word → Word → Piece) (x y : Word) (n : Nat) (s : State) :
    sampleRun piece n (s.withLatchesAB x y) = (sampleRun piece n s).withLatchesAB x y :=
  sampleRun_comm (State.withLatchesAB x y) (fun _ => rfl) (fun _ => rfl)
    (sampleTick_comm (State.withLatchesAB x y) (fun _ => rfl) (fun _ => rfl) (fun _ => rfl) (fun _ => rfl)
      (fun _ _ => rfl) (fun _ _ => rfl) (fun _ _ _ => rfl) (fun _ => rfl)) n s

/-- NEXT and UNID check no operand, and each of their elements is the draw itself. -/
theorem exec_raw {i : Instr} (hi : i = .next ∨ i = .unid) (s : State) :
    exec i s = .next (if s.valid then sampleRun rawPiece s.slice s else s.raise .invalidInstance) := by
  rcases hi with rfl | rfl <;> exact exec_sampling rfl s

theorem raw_withLatchesAB {i : Instr} (hi : i = .next ∨ i = .unid) (x y : Word) {s t : State}
    (h : exec i s = .next t) : exec i (s.withLatchesAB x y) = .next (t.withLatchesAB x y) := by
  rw [exec_raw hi] at h ⊢
  rw [← Host.Outcome.next.inj h, show (s.withLatchesAB x y).valid = s.valid from rfl]
  split
  · exact congrArg _ (sampleRun_withLatchesAB rawPiece x y s.slice s)
  · rfl

/-- Settles O11: a change of the latches a command ignores passes through it. -/
theorem ignoredOperandsHaveNoEffect : Obligations.IgnoredOperandsHaveNoEffect := fun _ _ x y z =>
  ⟨fun k => construct_withLatchesBN k y z, destroy_withLatches x y z, raw_withLatchesAB (.inl rfl) x y,
    raw_withLatchesAB (.inr rfl) x y⟩

end Sys2Proof.Machine

namespace Sys2Proof.Machine

/-! ### The seed mixer -/

@[simp] theorem mix64_zero : mix64 0 = 0 := by decide

theorem mix64_eq_zero_iff (x : Word) : mix64 x = 0 ↔ x = 0 :=
  ⟨fun e => of_not_not fun h => mix64_ne_zero h e, fun e => e ▸ mix64_zero⟩

theorem mix64_iterate_ne (n : Nat) {x y : Word} (h : x ≠ y) : mix64^[n] x ≠ mix64^[n] y :=
  (mix64_injective.iterate n).ne h

/-- Zero is the mixer's fixed point, so a chain that starts elsewhere does not meet it. -/
theorem mix64_iterate_ne_zero (n : Nat) {x : Word} (h : x ≠ 0) : mix64^[n] x ≠ 0 :=
  Function.iterate_fixed mix64_zero n ▸ mix64_iterate_ne n h

/-- Settles O22: each of the mixer's steps is one-to-one, so the mixer and its iterates are; the words are finitely many. -/
theorem mixerIsBijectiveFixingZero : Obligations.MixerIsBijectiveFixingZero :=
  ⟨Finite.injective_iff_bijective.mp mix64_injective, mix64_eq_zero_iff, fun n _ => mix64_iterate_ne_zero n,
    fun n _ _ => mix64_iterate_ne n⟩

/-! ### Acquisitions -/

theorem Answer.accepted_iff (zg : Bool) (a : Answer) :
    a.accepted zg = true ↔ a.ok = true ∧ ¬ (zg = true ∧ a.v = 0) := by
  cases zg <;> simp [Answer.accepted]

theorem acquire_of_accepted {zg : Bool} {a : Answer} (h : a.accepted zg = true) {left : Nat} (hl : 0 < left)
    (answers : List Answer) : acquire zg left (a :: answers) = (.value a.v, answers) := by
  cases left with
  | zero => exact absurd hl (by decide)
  | succ left => rw [acquire, if_pos h]

theorem acquire_no_attempt_left (zg : Bool) (answers : List Answer) : acquire zg 0 answers = (.exhausted, answers) := by
  rw [acquire]

theorem acquire_no_answer (zg : Bool) {left : Nat} (hl : 0 < left) :
    acquire zg left [] = (.waiting (retryLimit - left), []) := by
  cases left with
  | zero => exact absurd hl (by decide)
  | succ left => rw [acquire]

/-- Settles O24: the refused answers each cost an attempt (`acquire_skip`); what follows them decides. -/
theorem acquisitionTakesFirstAcceptedOfTen : Obligations.AcquisitionTakesFirstAcceptedOfTen := by
  intro zg pre a post hpre
  have refused : ∀ x ∈ pre, x.accepted zg = false := fun x hx =>
    Bool.eq_false_iff.mpr (mt (x.accepted_iff zg).mp (hpre x hx))
  have skip (rest : List Answer) (hl : pre.length ≤ 10) :
      acquire zg retryLimit (pre ++ rest) = acquire zg (10 - pre.length) rest :=
    acquire_skip zg pre rest retryLimit refused hl
  refine ⟨fun hl hok hzero => ?_, fun hl => ?_, fun hl => ?_⟩
  · rw [skip _ hl.le]
    exact acquire_of_accepted ((a.accepted_iff zg).mpr ⟨hok, hzero⟩) (Nat.sub_pos_of_lt hl) post
  · rw [skip _ hl.le, hl]
    exact acquire_no_attempt_left zg post
  · have used : retryLimit - (10 - pre.length) = pre.length := Nat.sub_sub_self hl.le
    rw [← List.append_nil pre, skip _ hl.le, acquire_no_answer zg (Nat.sub_pos_of_lt hl), used, List.append_nil]

/-! ### The written formulas -/

theorem mix64_formula (x : Word) :
    let a := (x ^^^ (x >>> 30)) * 0xBF58476D1CE4E5B9#64
    let b := (a ^^^ (a >>> 27)) * 0x94D049BB133111EB#64
    mix64 x = b ^^^ (b >>> 31) := by
  simp only [mix64, xorShiftRight, mixC1, mixC2, BitVec.mul_comm]

theorem pcgOutput_formula (s : Word) :
    let permuted := ((s >>> ((s >>> 59).toNat + 5)) ^^^ s) * 0xAEF17502108EF2D9#64
    pcgOutput s = permuted ^^^ (permuted >>> 43) := by
  simp only [pcgOutput, xorShiftRight, pcgShift, pcgOutMul, BitVec.mul_comm, BitVec.xor_comm]

/-- Settles O21: the model's products have the constant first, the document's have it last. -/
theorem unitsComputeTheWrittenFormulas : Obligations.UnitsComputeTheWrittenFormulas :=
  ⟨mix64_formula, pcgOutput_formula, fun s inc => congrArg (· + inc) (BitVec.mul_comm pcgLcgMul s), fun _ => rfl⟩

end Sys2Proof.Machine

namespace Sys2Proof.Machine

/-! ### The xorshift advancement and the streams of both kinds -/

@[simp] theorem xsAdvance_zero : xsAdvance 0 = 0 := by decide

theorem xsAdvance_eq_zero_iff (s : Word) : xsAdvance s = 0 ↔ s = 0 :=
  ⟨fun e => of_not_not fun h => xsAdvance_ne_zero h e, fun e => e ▸ xsAdvance_zero⟩

theorem advanceN_xs64_ne_zero (inc : Word) (n : Nat) {s : Word} (h : s ≠ 0) : advanceN .xs64 inc n s ≠ 0 := by
  induction n generalizing s with
  | zero => exact h
  | succ n ih => exact ih (xsAdvance_ne_zero h)

/-- A draw of an XS64 instance returns its new state, which is not zero. -/
theorem zero_notMem_rawStream_xs64 (inc : Word) (n : Nat) {s : Word} (h : s ≠ 0) :
    (0 : Word) ∉ rawStream .xs64 inc n s := by
  induction n generalizing s with
  | zero => exact List.not_mem_nil
  | succ n ih =>
    have hs : xsAdvance s ≠ 0 := xsAdvance_ne_zero h
    exact List.not_mem_cons_of_ne_of_not_mem hs.symm (ih hs)

/-- Settles O23: the three steps of the advancement are one-to-one, and the words are finitely many. -/
theorem xorshiftIsBijectiveFixingZero : Obligations.XorshiftIsBijectiveFixingZero :=
  ⟨Finite.injective_iff_bijective.mp xsAdvance_injective, xsAdvance_eq_zero_iff,
    fun n inc _ h => ⟨advanceN_xs64_ne_zero inc n h, zero_notMem_rawStream_xs64 inc n h⟩⟩

/-- Settles O34, by the branch of `output` and `advance` that KIND selects. -/
theorem drawAdvancesTheInstance : Obligations.DrawAdvancesTheInstance := by
  intro s
  constructor <;> intro hk <;> simp only [State.drawWord, State.drawn, hk, output, advance, and_self]

section
variable (kind : GenKind) (inc : Word)

theorem advanceN_add (a b : Nat) (s : Word) :
    advanceN kind inc (a + b) s = advanceN kind inc b (advanceN kind inc a s) := by
  induction a generalizing s with
  | zero => rw [Nat.zero_add, advanceN]
  | succ a ih => rw [Nat.succ_add, advanceN, advanceN, ih]

theorem rawStream_add (a b : Nat) (s : Word) :
    rawStream kind inc (a + b) s = rawStream kind inc a s ++ rawStream kind inc b (advanceN kind inc a s) := by
  induction a generalizing s with
  | zero => rw [Nat.zero_add, rawStream, advanceN, List.nil_append]
  | succ a ih => rw [Nat.succ_add, rawStream, rawStream, advanceN, ih, List.cons_append]

/-- The advancement of XS64 does not read INC. -/
theorem rawStream_xs64_inc (inc' : Word) (n : Nat) (s : Word) :
    rawStream .xs64 inc n s = rawStream .xs64 inc' n s := by
  induction n generalizing s with
  | zero => rfl
  | succ n ih => exact congrArg _ (ih _)

@[simp] theorem rawStream_length (n : Nat) (s : Word) : (rawStream kind inc n s).length = n := by
  induction n generalizing s with
  | zero => rfl
  | succ n ih => rw [rawStream, List.length_cons, ih]

end

end Sys2Proof.Machine

namespace Sys2Proof.Machine

/-! ### CONSTRUCT on an empty block -/

theorem construct_pcg {s : State} (hv : s.valid = false) :
    exec (.construct 0x00#8) s = .next (if s.lA ≠ 0 then pcgSeedDet s else pcgSeedHw s) := by
  rw [exec, execConstruct, hv, if_neg Bool.false_ne_true]
  rfl

theorem construct_xs {s : State} (hv : s.valid = false) :
    exec (.construct 0x01#8) s = .next (if s.lA ≠ 0 then xsSeedDet s else xsSeedHw s) := by
  rw [exec, execConstruct, hv, if_neg Bool.false_ne_true]
  rfl

/-- Settles O25: deterministic seeding makes no acquisition, and the mixer maps only zero to zero. -/
theorem constructFromNonzeroSeed : Obligations.ConstructFromNonzeroSeed := by
  intro s hv hA
  refine ⟨?_, ?_, mix64_ne_zero hA⟩
  · rw [construct_pcg hv, if_pos hA]
    rfl
  · rw [construct_xs hv, if_pos hA]
    rfl

/-- Settles O58: with a non-zero seed every register that holds a value after CONSTRUCT is a function of the seed; under
XS64, whose INC holds none, the stream does not read INC. -/
theorem equalSeedsGiveEqualStreams : Obligations.EqualSeedsGiveEqualStreams := by
  intro k s₁ s₂ hk hv₁ hv₂ hseed hA
  obtain ⟨pcg₁, xs₁, _⟩ := constructFromNonzeroSeed s₁ hv₁ hA
  obtain ⟨pcg₂, xs₂, _⟩ := constructFromNonzeroSeed s₂ hv₂ (hseed ▸ hA)
  rcases hk with rfl | rfl
  · refine ⟨_, _, pcg₁, pcg₂, rfl, rfl, rfl, ?_⟩
    simp only [hseed, implies_true, and_self]
  · refine ⟨_, _, xs₁, xs₂, rfl, rfl, rfl, ?_⟩
    simp only [hseed, rawStream_xs64_inc s₁.regInc s₂.regInc, reduceCtorEq, false_implies, implies_true, and_self]

end Sys2Proof.Machine

namespace Sys2Proof.Machine

/-! ### CONSTRUCT from entropy -/

section
variable {zg : Bool} {pre post : List Answer} {a : Answer} (refused : ∀ x ∈ pre, x.accepted zg = false)
  (done : Word → State → State) {s : State} (hs : s.work.attempts = 0)
include refused hs

/-- An acquisition that has used no attempt yet goes on with its first accepted answer. -/
theorem withAcquired_of_accepted (hl : pre.length < 10) (ha : a.accepted zg = true)
    (hans : s.answers = pre ++ a :: post) : withAcquired zg done s = done a.v (s.arbiter post 0 false) := by
  have hacq : acquire zg retryLimit (pre ++ a :: post) = (.value a.v, post) := by
    rw [acquire_skip zg pre _ retryLimit refused hl.le]
    exact acquire_of_accepted ha (Nat.sub_pos_of_lt hl) post
  rw [withAcquired, hs, hans, Nat.sub_zero, hacq]

/-- Ten refused answers from its start on end an acquisition, and with it the command. -/
theorem withAcquired_of_ten_refused (hl : pre.length = 10) (hans : s.answers = pre ++ post) :
    withAcquired zg done s = (s.arbiter post 0 false).raise .hardwareEntropyExhausted := by
  have hacq : acquire zg retryLimit (pre ++ post) = (.exhausted, post) := by
    rw [acquire_skip zg pre _ retryLimit refused hl.le, hl]
    exact acquire_no_attempt_left zg post
  rw [withAcquired, hs, hans, Nat.sub_zero, hacq]

end

theorem Answer.accepted_of_ok {a : Answer} (h : a.ok = true) : a.accepted false = true :=
  (a.accepted_iff false).mpr ⟨h, fun hz => Bool.false_ne_true hz.1⟩

theorem Answer.not_accepted_of_not_ok {a : Answer} (h : a.ok = false) (zg : Bool) : a.accepted zg = false := by
  rw [Answer.accepted, h, Bool.false_and]

/-- The zero guard (40_units_mixer_entropy.md R96). -/
theorem Answer.not_accepted_of_zero {a : Answer} (h : a.v = 0) : a.accepted true = false :=
  Bool.eq_false_iff.mpr fun ha => ((a.accepted_iff true).mp ha).2 ⟨rfl, h⟩

section
variable {s : State} (hv : s.valid = false) (hA : s.lA = 0)
include hv hA

theorem construct_pcg_of_zero_seed (hw : s.work = Work.fresh) :
    exec (.construct 0x00#8) s = .next (withAcquired false (fun v s' => pcgSeedSecond v (s'.keepFirst v)) s) := by
  rw [construct_pcg hv, if_neg (not_not_intro hA), pcgSeedHw, hw]
  rfl

theorem construct_xs_of_zero_seed :
    exec (.construct 0x01#8) s = .next (withAcquired true (fun v s' => (s'.installXs v).succeed) s) := by
  rw [construct_xs hv, if_neg (not_not_intro hA), xsSeedHw]

end

/-- Settles O26: each acquisition skips the underflows before its first answer; the second starts with a new count of
attempts, on the answers that the first left. -/
theorem constructPcgFromEntropy : Obligations.ConstructPcgFromEntropy := by
  intro s pre₁ pre₂ post a₁ a₂ hv hA hw hpre₁ hpre₂ ha₁ ha₂
  have refused₁ : ∀ x ∈ pre₁, x.accepted false = false := fun x hx => x.not_accepted_of_not_ok (hpre₁ x hx) false
  have refused₂ : ∀ x ∈ pre₂, x.accepted false = false := fun x hx => x.not_accepted_of_not_ok (hpre₂ x hx) false
  have attempts : s.work.attempts = 0 := congrArg Work.attempts hw
  rw [construct_pcg_of_zero_seed hv hA hw]
  refine ⟨fun hl₁ hl₂ hans => ?_, fun hl₁ hans => ?_, fun hl₁ hl₂ hans => ?_⟩
  · rw [withAcquired_of_accepted refused₁ _ attempts hl₁ (Answer.accepted_of_ok ha₁) hans, pcgSeedSecond,
      withAcquired_of_accepted refused₂ _ rfl hl₂ (Answer.accepted_of_ok ha₂) rfl]
    exact ⟨_, rfl⟩
  · rw [withAcquired_of_ten_refused refused₁ _ attempts hl₁ hans]
    exact ⟨_, rfl⟩
  · rw [withAcquired_of_accepted refused₁ _ attempts hl₁ (Answer.accepted_of_ok ha₁) hans, pcgSeedSecond,
      withAcquired_of_ten_refused refused₂ _ rfl hl₂ rfl]
    exact ⟨_, rfl⟩

/-- Settles O27: under the zero guard a zero answer is refused as an underflow is. -/
theorem constructXsFromEntropy : Obligations.ConstructXsFromEntropy := by
  intro s pre post a hv hA hw hpre hok hne
  have refused : ∀ x ∈ pre, x.accepted true = false := fun x hx =>
    (hpre x hx).elim (x.not_accepted_of_not_ok · true) x.not_accepted_of_zero
  have accepted : a.accepted true = true := (a.accepted_iff true).mpr ⟨hok, fun hz => hne hz.2⟩
  have attempts : s.work.attempts = 0 := congrArg Work.attempts hw
  rw [construct_xs_of_zero_seed hv hA]
  refine ⟨fun hl hans => ?_, fun hl hans => ?_⟩
  · rw [withAcquired_of_accepted refused _ attempts hl accepted hans]
    exact ⟨_, rfl⟩
  · rw [withAcquired_of_ten_refused refused _ attempts hl hans]
    exact ⟨_, rfl⟩

end Sys2Proof.Machine

namespace Sys2Proof.Machine

/-! ### NEXT -/

/-- The state once the first `n` elements of a command that emits raw draws are out. -/
def State.rawEmitted (n : Nat) (s : State) : State :=
  { s with
    regS := advanceN s.kind s.regInc n s.regS
    oq := s.oq ++ rawStream s.kind s.regInc n s.regS
    work := { Work.fresh with j := n } }

theorem State.rawEmitted_zero {s : State} (hw : s.work = Work.fresh) : s.rawEmitted 0 = s := by
  have hw' : { Work.fresh with j := 0 } = s.work := hw.symm
  rw [State.rawEmitted, hw', advanceN, rawStream, List.append_nil]

/-- One more element is one more draw, emitted. -/
theorem State.emit_drawn_rawEmitted (n : Nat) (s : State) :
    State.emit (s.rawEmitted n).drawWord ((s.rawEmitted n).drawn.due (s.rawEmitted n).drawWord) =
      s.rawEmitted (n + 1) := by
  simp only [State.rawEmitted, advanceN_add _ _ n 1, rawStream_add _ _ n 1, ← List.append_assoc]
  rfl

theorem State.rawEmitted_hasRoom {s : State} {n : Nat} (h : s.roomFor (n + 1)) : (s.rawEmitted n).hasRoom = true :=
  hasRoom_of_roomFor (n := 0) fun d hd => by
    have hle : s.oq.length + (n + 1) ≤ d := h d hd
    simp only [State.rawEmitted, List.length_append, rawStream_length]
    omega

/-- The first `n` elements of NEXT or UNID cost a draw and an emit each. -/
theorem sampleRun_rawPiece {s : State} (hp : s.phase = .run) (hw : s.work = Work.fresh) {n : Nat} (hn : n ≤ s.lN.toNat)
    (hr : s.roomFor n) (m : Nat) : sampleRun rawPiece (2 * n + m) s = sampleRun rawPiece m (s.rawEmitted n) := by
  induction n generalizing m with
  | zero => rw [State.rawEmitted_zero hw, Nat.mul_zero, Nat.zero_add]
  | succ n ih =>
    have hr' : s.roomFor n := fun d hd => Nat.le_of_succ_le (hr d hd)
    calc sampleRun rawPiece (2 * (n + 1) + m) s
        = sampleRun rawPiece (2 * n + (m + 2)) s := by rw [Nat.mul_succ, Nat.add_assoc, Nat.add_comm 2 m]
      _ = sampleRun rawPiece (m + 2) (s.rawEmitted n) := ih (Nat.le_of_succ_le hn) hr' (m + 2)
      _ = sampleRun rawPiece m (s.rawEmitted (n + 1)) := by
        rw [sampleRun_word (s := s.rawEmitted n) m hp rfl hn (State.rawEmitted_hasRoom hr) rfl,
          State.emit_drawn_rawEmitted]

/-- With room for its elements, and time for them and the completion, the command ends with all its draws emitted. -/
theorem exec_raw_completes {i : Instr} (hi : i = .next ∨ i = .unid) {s : State} (h : s.startsSampling)
    (hr : s.roomFor s.lN.toNat) (hm : 2 * s.lN.toNat + 1 ≤ s.slice) : exec i s = .next
      (s.sampled (advanceN s.kind s.regInc s.lN.toNat s.regS) (rawStream s.kind s.regInc s.lN.toNat s.regS)) := by
  obtain ⟨hp, hv, hw⟩ := h
  obtain ⟨k, hk⟩ : ∃ k, s.slice = 2 * s.lN.toNat + (k + 1) := ⟨s.slice - (2 * s.lN.toNat + 1), by omega⟩
  rw [exec_raw hi, if_pos hv, hk, sampleRun_rawPiece hp hw le_rfl hr,
    sampleRun_done (s := s.rawEmitted s.lN.toNat) k hp rfl (Nat.lt_irrefl _), State.sampled, rawStream_length]
  rfl

/-- Settles O35: an element of NEXT is one draw; and a stream splits at any number of draws. -/
theorem nextEmitsItsDraws : Obligations.NextEmitsItsDraws :=
  ⟨fun _ hv => exec_of_not_valid rfl hv, fun _ => exec_raw_completes (.inl rfl),
    fun kind inc s a b => ⟨rawStream_add kind inc a b s, advanceN_add kind inc a b s⟩⟩

end Sys2Proof.Machine

namespace Sys2Proof.Machine

/-! ### The elements that a sampling command makes of its draws -/

/-- The finished elements among the draws `ds`, in order, when an element is begun with the working values `k` and `acc`;
after each the next one is begun afresh. -/
def elements (piece : Nat → Word → Word → Piece) : (k : Nat) → (acc : Word) → List Word → List Word
  | _, _, [] => []
  | k, acc, d :: ds =>
    match piece k acc d with
    | .word v => v :: elements piece 0 0 ds
    | .more k' acc' => elements piece k' acc' ds

/-- The end of a command that has made `n` more draws, and of them the last `es` of its elements. -/
def State.completed (n : Nat) (es : List Word) (s : State) : State :=
  { s with
    regS := advanceN s.kind s.regInc n s.regS
    oq := s.oq ++ es
    code := .success
    phase := .idle
    work := { s.work with j := s.work.j + es.length, k := 0, acc := 0, pending := none } }

theorem State.completed_zero {s : State} (hk : s.work.k = 0) (hacc : s.work.acc = 0) (hn : s.work.pending = none) :
    s.completed 0 [] = s.succeed := by
  have hwork : { s.work with k := 0, acc := 0, pending := none } = s.work := by rw [← hk, ← hacc, ← hn]
  rw [State.completed, List.append_nil]
  exact congrArg (fun w => State.succeed { s with work := w }) hwork

theorem State.completed_carry (n : Nat) (es : List Word) (s : State) (k : Nat) (acc : Word) :
    (s.drawn.carry k acc).completed n es = s.completed (n + 1) es := rfl

theorem State.completed_emit (n : Nat) (es : List Word) (s : State) (v : Word) :
    ((s.drawn.due v).emit v).completed n es = s.completed (n + 1) (v :: es) := by
  simp only [State.completed, List.length_cons, ← Nat.add_assoc, Nat.add_right_comm _ es.length 1,
    List.append_cons s.oq v es]
  rfl

theorem State.completed_of_fresh {s : State} (hw : s.work = Work.fresh) (n : Nat) (es : List Word) :
    s.completed n es = s.sampled (advanceN s.kind s.regInc n s.regS) es := by
  rw [State.completed, State.sampled, hw, show Work.fresh.j + es.length = es.length from Nat.zero_add _]
  rfl

section
variable {piece : Nat → Word → Word → Piece}

theorem elements_of_word {k : Nat} {acc d v : Word} (h : piece k acc d = .word v) (ds : List Word) :
    elements piece k acc (d :: ds) = v :: elements piece 0 0 ds := by
  rw [elements, h]

theorem elements_of_more {k k' : Nat} {acc acc' d : Word} (h : piece k acc d = .more k' acc') (ds : List Word) :
    elements piece k acc (d :: ds) = elements piece k' acc' ds := by
  rw [elements, h]

/-- The elements that the next `n` draws finish, the one begun included. -/
def State.nextElements (piece : Nat → Word → Word → Piece) (n : Nat) (s : State) : List Word :=
  elements piece s.work.k s.work.acc (rawStream s.kind s.regInc n s.regS)

theorem State.nextElements_zero (s : State) : s.nextElements piece 0 = [] := rfl

theorem State.nextElements_of_word {s : State} {v : Word} (h : piece s.work.k s.work.acc s.drawWord = .word v) (n : Nat) :
    s.nextElements piece (n + 1) = v :: ((s.drawn.due v).emit v).nextElements piece n :=
  elements_of_word h _

theorem State.nextElements_of_more {s : State} {k : Nat} {acc : Word}
    (h : piece s.work.k s.work.acc s.drawWord = .more k acc) (n : Nat) :
    s.nextElements piece (n + 1) = (s.drawn.carry k acc).nextElements piece n :=
  elements_of_more h _

theorem roomFor_emit {s : State} {v : Word} {n : Nat} (h : s.roomFor (n + 1)) : ((s.drawn.due v).emit v).roomFor n :=
  fun d hd => by
    have hle : s.oq.length + (n + 1) ≤ d := h d hd
    simp only [State.emit_oq, State.due_oq, State.drawn_oq, List.length_append, List.length_singleton]
    omega

/-- A command whose remaining elements are those of the next `n` draws, and of no fewer, ends after these draws, with room
for the elements, and time for the draws, the emits and the completion. -/
theorem sampleRun_completes (n : Nat) {s : State} {m : Nat} (hp : s.phase = .run) (hn : s.work.pending = none)
    (hbegun : s.work.j = s.opCount → s.work.k = 0 ∧ s.work.acc = 0)
    (hlast : s.work.j + (s.nextElements piece n).length = s.opCount)
    (hleast : ∀ l < n, s.work.j + (s.nextElements piece l).length < s.opCount)
    (hr : s.roomFor (s.nextElements piece n).length) (hm : n + (s.nextElements piece n).length + 1 ≤ m) :
    sampleRun piece m s = s.completed n (s.nextElements piece n) := by
  induction n generalizing s m with
  | zero =>
    have hj : s.work.j = s.opCount := hlast
    obtain ⟨hk, hacc⟩ := hbegun hj
    obtain ⟨m, rfl⟩ : ∃ l, m = l + 1 := ⟨m - 1, by omega⟩
    rw [sampleRun_done m hp hn hj.not_lt, State.nextElements_zero, State.completed_zero hk hacc hn]
  | succ n ih =>
    have hj : s.work.j < s.opCount := hleast 0 n.succ_pos
    cases hd : piece s.work.k s.work.acc s.drawWord with
    | word v =>
      rw [State.nextElements_of_word hd] at hlast hr hm ⊢
      rw [List.length_cons] at hlast hr hm
      obtain ⟨m, rfl⟩ : ∃ l, m = l + 2 := ⟨m - 2, by omega⟩
      rw [sampleRun_word m hp hn hj (hasRoom_of_roomFor hr) hd, ← State.completed_emit]
      refine ih hp rfl (fun _ => ⟨rfl, rfl⟩) ?_ (fun l hl => ?_) (roomFor_emit hr) (by omega)
      · exact (Nat.succ_add_eq_add_succ _ _).trans hlast
      · have h := hleast (l + 1) (Nat.succ_lt_succ hl)
        rw [State.nextElements_of_word hd] at h
        exact (Nat.succ_add_eq_add_succ _ _).trans_lt h
    | more k acc =>
      rw [State.nextElements_of_more hd] at hlast hr hm ⊢
      obtain ⟨m, rfl⟩ : ∃ l, m = l + 1 := ⟨m - 1, by omega⟩
      rw [sampleRun_more m hp hn hj hd, ← State.completed_carry]
      refine ih hp hn (fun e => absurd e hj.ne) hlast (fun l hl => ?_) hr (by omega)
      have h := hleast (l + 1) (Nat.succ_lt_succ hl)
      rwa [State.nextElements_of_more hd] at h

end

/-- From its start, a command whose `count` elements are those of `n` draws, and of no fewer, ends with them emitted. -/
theorem exec_completes {i : Instr} (hi : isSampling i = true) {s : State} (hs : s.startsSampling)
    (ho : operandsOk i s = true) (hr : s.roomFor s.lN.toNat) {n : Nat} (hm : n + s.lN.toNat + 1 ≤ s.slice)
    (hlast : (elements (pieceOf i s) 0 0 (rawStream s.kind s.regInc n s.regS)).length = s.lN.toNat)
    (hleast : ∀ l < n, (elements (pieceOf i s) 0 0 (rawStream s.kind s.regInc l s.regS)).length < s.lN.toNat) :
    exec i s = .next (s.sampled (advanceN s.kind s.regInc n s.regS)
      (elements (pieceOf i s) 0 0 (rawStream s.kind s.regInc n s.regS))) := by
  obtain ⟨hp, hv, hw⟩ := hs
  have begun : ∀ l, s.nextElements (pieceOf i s) l = elements (pieceOf i s) 0 0 (rawStream s.kind s.regInc l s.regS) :=
    fun l => by rw [State.nextElements, hw]; rfl
  have hj : s.work.j = 0 := congrArg Work.j hw
  rw [exec_of_operandsOk hi hv ho, ← begun, ← State.completed_of_fresh hw]
  congr 1
  refine sampleRun_completes n hp (congrArg Work.pending hw) (fun _ => ⟨congrArg Work.k hw, congrArg Work.acc hw⟩)
    ?_ (fun l hl => ?_) ?_ ?_ <;> rw [begun]
  · rw [hj, Nat.zero_add, hlast]
    rfl
  · rw [hj, Nat.zero_add]
    exact hleast l hl
  · rwa [hlast]
  · rwa [hlast]

end Sys2Proof.Machine

namespace Sys2Proof.Machine

/-! ### UNID -/

/-- NEXT and UNID have the same meaning (42_sampling.md R150). -/
theorem exec_unid_eq_next (s : State) : exec .unid s = exec .next s :=
  (exec_raw (.inr rfl) s).trans (exec_raw (.inl rfl) s).symm

theorem unidValue_nonneg (w : Word) : 0 ≤ unidValue w := div_nonneg w.toNat.cast_nonneg (by norm_num)

theorem unidValue_le (w : Word) : unidValue w ≤ 1 - 1 / 2 ^ 64 := by
  have hw : w.toNat + 1 ≤ 2 ^ 64 := w.isLt
  have hq : (w.toNat : Rat) + 1 ≤ 2 ^ 64 := by exact_mod_cast hw
  rw [le_sub_iff_add_le, unidValue, ← add_div]
  exact div_le_one_of_le₀ hq (by norm_num)

/-- Settles O36: UNID is NEXT, and a word is below 2^64. -/
theorem unidEmitsFractions : Obligations.UnidEmitsFractions :=
  ⟨fun _ hv => exec_of_not_valid rfl hv, exec_unid_eq_next, fun _ => exec_raw_completes (.inr rfl),
    fun w => ⟨rfl, unidValue_nonneg w, unidValue_le w⟩⟩

end Sys2Proof.Machine

namespace Sys2Proof.Machine

/-! ### RANGE and MASK -/

theorem randRange_toNat {min max : Word} (h : min ≤ max) : (randRange min max).toNat = max.toNat - min.toNat :=
  BitVec.toNat_sub_of_le h

theorem bitlen_le_64 (v : Word) : bitlen v ≤ 64 := Nat.sub_le _ _

theorem bitlen_le_iff (v : Word) (k : Nat) : bitlen v ≤ k ↔ v.toNat < 2 ^ k := by
  constructor
  · exact fun h => (toNat_lt_two_pow_bitlen v).trans_le (Nat.pow_le_pow_right Nat.two_pos h)
  · intro h
    by_cases hv : v = 0
    · rw [hv, show bitlen 0 = 0 by decide]
      exact k.zero_le
    · have hlt : 2 ^ (bitlen v - 1) < 2 ^ k := (two_pow_pred_bitlen_le v hv).trans_lt h
      have := (Nat.pow_lt_pow_iff_right one_lt_two).1 hlt
      omega

theorem randMask_toNat (range : Word) : (randMask range).toNat = 2 ^ bitlen range - 1 :=
  ones_toNat _ (bitlen_le_64 range)

theorem le_randMask (range : Word) : range ≤ randMask range := by
  rw [BitVec.le_def, randMask_toNat]
  exact Nat.le_sub_one_of_lt (toNat_lt_two_pow_bitlen range)

/-- MASK is the least all-ones word not below RANGE. -/
theorem randMask_le {range : Word} {k : Nat} (h : range.toNat ≤ 2 ^ k - 1) : (randMask range).toNat ≤ 2 ^ k - 1 := by
  have hlt : range.toNat < 2 ^ k := Nat.lt_of_le_sub_one (Nat.two_pow_pos k) h
  rw [randMask_toNat]
  exact Nat.sub_le_sub_right (Nat.pow_le_pow_right Nat.two_pos ((bitlen_le_iff range k).2 hlt)) 1

@[simp] theorem randMask_zero : randMask 0 = 0 := by decide

theorem randMask_le_two_mul {range : Word} (h : 1 ≤ range.toNat) : (randMask range).toNat ≤ 2 * range.toNat := by
  have hne : range ≠ 0 := fun e => by rw [e] at h; exact absurd h (by decide)
  have hpos : bitlen range ≠ 0 := fun e => by
    have hlt := toNat_lt_two_pow_bitlen range
    rw [e] at hlt
    omega
  have hhalf : 2 ^ bitlen range = 2 * 2 ^ (bitlen range - 1) := (mul_pow_sub_one hpos 2).symm
  have hle := two_pow_pred_bitlen_le range hne
  rw [randMask_toNat]
  omega

theorem randMask_getLsbD (range : Word) (i : Nat) : (randMask range).getLsbD i = decide (i < bitlen range) := by
  rw [← BitVec.testBit_toNat, randMask_toNat, Nat.testBit_two_pow_sub_one]

theorem randMask_eq_shift (range : Word) : randMask range = BitVec.allOnes 64 >>> clz64 range := by
  refine BitVec.eq_of_getLsbD_eq fun i _ => ?_
  rw [randMask_getLsbD, BitVec.getLsbD_ushiftRight, BitVec.getLsbD_allOnes, bitlen, decide_eq_decide]
  omega

/-- Settles O39: MASK is 2^k - 1 with k the bit length of RANGE, and RANGE has its highest one bit at k - 1. -/
theorem maskIsLeastAllOnes : Obligations.MaskIsLeastAllOnes :=
  ⟨fun _ _ => randRange_toNat, fun range => ⟨le_randMask range, ⟨_, bitlen_le_64 range, randMask_toNat range⟩,
    fun _ => randMask_le, randMask_le_two_mul, fun h => h ▸ randMask_zero, fun _ => randMask_eq_shift range⟩⟩

theorem randMask_eq_self_iff (range : Word) : randMask range = range ↔ ∃ k, range.toNat + 1 = 2 ^ k := by
  constructor
  · intro h
    have hnat := randMask_toNat range
    have hpos := Nat.two_pow_pos (bitlen range)
    rw [h] at hnat
    exact ⟨bitlen range, by omega⟩
  · rintro ⟨k, hk⟩
    have hle : (randMask range).toNat ≤ range.toNat := by
      rw [Nat.eq_sub_of_add_eq hk]
      exact randMask_le (Nat.eq_sub_of_add_eq hk).le
    exact BitVec.le_antisymm hle (le_randMask range)

end Sys2Proof.Machine

namespace Sys2Proof.Machine

/-! ### RAND -/

theorem randAccept_eq_some_iff {min range d v : Word} :
    randAccept min range d = some v ↔ d &&& randMask range ≤ range ∧ (d &&& randMask range) + min = v := by
  rw [randAccept]
  split <;> simp_all

/-- An accepted draw gives a word from `min` to `max`: it is at most RANGE, so the sum does not wrap (42_sampling.md R134). -/
theorem randAccept_mem_range {min max d v : Word} (h : min ≤ max) (hv : randAccept min (randRange min max) d = some v) :
    min ≤ v ∧ v ≤ max := by
  obtain ⟨hle, rfl⟩ := randAccept_eq_some_iff.1 hv
  generalize d &&& randMask (randRange min max) = m at hle ⊢
  rw [BitVec.le_def, randRange_toNat h] at hle
  rw [BitVec.le_def] at h
  have hmax := max.isLt
  rw [BitVec.le_def, BitVec.le_def, BitVec.toNat_add, Nat.mod_eq_of_lt (by omega)]
  omega

/-- With RANGE = MASK no draw is rejected (42_sampling.md R136). -/
theorem randAccept_of_randMask_eq {range : Word} (h : randMask range = range) (min d : Word) :
    randAccept min range d = some ((d &&& range) + min) := by
  rw [randAccept_eq_some_iff, h]
  exact ⟨by rw [BitVec.le_def, BitVec.toNat_and]; exact Nat.and_le_right, rfl⟩

theorem randPiece_of_accept {min range d v : Word} (h : randAccept min range d = some v) (k : Nat) (acc : Word) :
    randPiece min range k acc d = .word v := by
  rw [randPiece, h]

theorem randPiece_of_reject {min range d : Word} (h : randAccept min range d = none) (k : Nat) (acc : Word) :
    randPiece min range k acc d = .more k acc := by
  rw [randPiece, h]

theorem randAccept_of_randPiece {min range acc d v : Word} {k : Nat} (h : randPiece min range k acc d = .word v) :
    randAccept min range d = some v := by
  cases ha : randAccept min range d with
  | some w => rw [randPiece_of_accept ha] at h; rw [Piece.word.inj h]
  | none => rw [randPiece_of_reject ha] at h; cases h

/-- The elements of RAND are the accepted draws (42_sampling.md R132). -/
theorem elements_randPiece (min range : Word) (k : Nat) (acc : Word) (ds : List Word) :
    elements (randPiece min range) k acc ds = ds.filterMap (randAccept min range) := by
  induction ds generalizing k acc with
  | nil => rfl
  | cons d ds ih =>
    cases ha : randAccept min range d with
    | some v => rw [elements_of_word (randPiece_of_accept ha k acc), ih, List.filterMap_cons_some ha]
    | none => rw [elements_of_more (randPiece_of_reject ha k acc), ih, List.filterMap_cons_none ha]

theorem filterMap_randAccept (min range : Word) (ds : List Word) :
    ds.filterMap (randAccept min range) = ((ds.map (· &&& randMask range)).filter (· ≤ range)).map (· + min) := by
  induction ds with
  | nil => rfl
  | cons d ds ih =>
    rw [List.filterMap_cons, ih, randAccept, List.map_cons, List.filter_cons]
    by_cases h : d &&& randMask range ≤ range <;> simp [h]

theorem operandsOk_rand {s : State} (h : s.lA ≤ s.lB) : operandsOk .rand s = true := by
  simpa [operandsOk] using h

theorem exec_rand_of_lt {s : State} (hv : s.valid = true) (h : s.lB < s.lA) :
    exec .rand s = .next (s.raise .argumentOutOfBounds) :=
  exec_of_not_operandsOk rfl hv (by simpa [operandsOk] using h)

/-- RAND ends with `count` accepted draws emitted, when it has time for the `n` draws to the last of them. -/
theorem exec_rand_completes {s : State} (hs : s.startsSampling) (hle : s.lA ≤ s.lB) (hr : s.roomFor s.lN.toNat) {n : Nat}
    (hm : n + s.lN.toNat + 1 ≤ s.slice) {emitted : Nat → List Word}
    (he : ∀ m, (rawStream s.kind s.regInc m s.regS).filterMap (randAccept s.lA (randRange s.lA s.lB)) = emitted m)
    (hlast : (emitted n).length = s.lN.toNat) (hleast : ∀ m < n, (emitted m).length < s.lN.toNat) :
    exec .rand s = .next (s.sampled (advanceN s.kind s.regInc n s.regS) (emitted n)) := by
  have h := exec_completes (i := .rand) rfl hs (operandsOk_rand hle) hr hm
  simp only [pieceOf, elements_randPiece, he] at h
  exact h hlast hleast

/-- Settles O37: the elements of the first `m` draws are the accepted ones among them. -/
theorem randEmitsAcceptedDraws : Obligations.RandEmitsAcceptedDraws := by
  refine ⟨fun _ hv => exec_of_not_valid rfl hv, fun _ => exec_rand_of_lt, ?_⟩
  intro s n hs hle hr hm accepted hlast hleast
  exact exec_rand_completes hs hle hr hm (emitted := fun m => (accepted m).map (· + s.lA))
    (fun _ => filterMap_randAccept s.lA _ _) ((accepted n).length_map _ ▸ hlast)
    (fun m hlt => (accepted m).length_map _ ▸ hleast m hlt)

/-- What the words of a sampling run have in common, if each piece gives it and the word that is due has it. -/
theorem sampleRun_words {piece : Nat → Word → Word → Piece} (P : Word → Prop)
    (hP : ∀ k acc d v, piece k acc d = .word v → P v) (n : Nat) {s : State} (h : ∀ v, s.work.pending = some v → P v) :
    (∃ ws, (sampleRun piece n s).oq = s.oq ++ ws ∧ ∀ w ∈ ws, P w) ∧
      ∀ v, (sampleRun piece n s).work.pending = some v → P v := by
  refine sampleRun_induct (fun t => (∃ ws, t.oq = s.oq ++ ws ∧ ∀ w ∈ ws, P w) ∧ ∀ v, t.work.pending = some v → P v)
    ?_ n s ⟨⟨[], (List.append_nil _).symm, fun _ hw => absurd hw List.not_mem_nil⟩, h⟩
  rintro t ⟨⟨ws, hq, hws⟩, hdue⟩ _ hst
  rcases sampleTick_cases (piece := piece) t hst with
    ⟨v, hv, _, e⟩ | ⟨_, _, v, hv, e⟩ | ⟨_, _, _, _, _, e⟩ | ⟨_, _, e⟩ <;> rw [e]
  · refine ⟨⟨ws ++ [v], by rw [State.emit_oq, hq, List.append_assoc], fun w hw => ?_⟩, fun _ hn => by cases hn⟩
    rcases List.mem_append.1 hw with hw | hw
    · exact hws w hw
    · exact List.mem_singleton.1 hw ▸ hdue v hv
  · exact ⟨⟨ws, hq, hws⟩, fun w hw => Option.some.inj hw ▸ hP _ _ _ v hv⟩
  · exact ⟨⟨ws, hq, hws⟩, hdue⟩
  · exact ⟨⟨ws, hq, hws⟩, hdue⟩

/-- Settles O38: RAND gives only accepted draws, each of which lies in the range. -/
theorem randSamplesStayInRange : Obligations.RandSamplesStayInRange := by
  intro s t hle hdue he
  rcases sampling_cases rfl he with ⟨_, _, rfl⟩ | ⟨_, _, rfl⟩ | ⟨_, rfl⟩
  · exact sampleRun_words (fun v => s.lA ≤ v ∧ v ≤ s.lB)
      (fun _ _ _ _ hv => randAccept_mem_range hle (randAccept_of_randPiece hv)) s.slice hdue
  · exact ⟨⟨[], (List.append_nil _).symm, fun _ hw => absurd hw List.not_mem_nil⟩, hdue⟩
  · exact ⟨⟨[], (List.append_nil _).symm, fun _ hw => absurd hw List.not_mem_nil⟩, hdue⟩

theorem randPiece_full_range : randPiece 0 (randRange 0 0xFFFFFFFFFFFFFFFF#64) = rawPiece := by
  have hmask : randMask (randRange 0 0xFFFFFFFFFFFFFFFF#64) = randRange 0 0xFFFFFFFFFFFFFFFF#64 :=
    (randMask_eq_self_iff _).2 ⟨64, by decide⟩
  funext k acc d
  have hd : (d &&& randRange 0 0xFFFFFFFFFFFFFFFF#64) + 0 = d := (BitVec.add_zero _).trans BitVec.and_allOnes
  rw [randPiece_of_accept (randAccept_of_randMask_eq hmask 0 d), hd, rawPiece]

/-- Settles O40: with the mask of all ones each draw is an element. -/
theorem fullRangeRandIsNext : Obligations.FullRangeRandIsNext := by
  refine ⟨fun s hA hB => ?_, fun min _ d h => randAccept_of_randMask_eq h min d, randMask_eq_self_iff⟩
  have hle : s.lA ≤ s.lB := by rw [hA, BitVec.le_def]; exact Nat.zero_le _
  rw [exec_sampling (i := .rand) rfl, if_pos (operandsOk_rand hle), exec_raw (.inl rfl), pieceOf, hA, hB,
    randPiece_full_range]

/-- With `min = max` RANGE is 0, and so is every masked draw. -/
theorem randAccept_of_one_value (min d : Word) : randAccept min (randRange min min) d = some min := by
  have hrange : randRange min min = 0 := BitVec.sub_self min
  have hd : (d &&& 0#64) + min = min := by rw [BitVec.and_zero, BitVec.zero_add]
  rw [hrange, randAccept_of_randMask_eq randMask_zero]
  exact congrArg some hd

theorem filterMap_of_one_value (min : Word) (ds : List Word) :
    ds.filterMap (randAccept min (randRange min min)) = List.replicate ds.length min := by
  rw [funext (randAccept_of_one_value min), ← List.map_const']
  exact congrFun List.filterMap_eq_map ds

/-- Settles O41: all draws are accepted, so `count` draws give `count` elements, and fewer draws give fewer. -/
theorem randOfOneValueCostsOneDraw : Obligations.RandOfOneValueCostsOneDraw := by
  intro s hs heq hr hm
  have emitted : ∀ m, (rawStream s.kind s.regInc m s.regS).filterMap (randAccept s.lA (randRange s.lA s.lB)) =
      List.replicate m s.lA := fun m => by
    rw [← heq, filterMap_of_one_value, rawStream_length]
  exact exec_rand_completes hs (BitVec.le_of_eq heq) hr (by omega) emitted List.length_replicate
    (fun m hlt => List.length_replicate.trans_lt hlt)

end Sys2Proof.Machine

namespace Sys2Proof.Machine

/-! ### The operands of BIAS -/

/-- The operands that `bias_check` lets pass (42_sampling.md R140, R146). -/
def BiasOperands (numerator exponent : Word) : Prop :=
  0 < numerator.toNat ∧ 1 ≤ exponent.toNat ∧ exponent.toNat ≤ 64 ∧ numerator.toNat < 2 ^ exponent.toNat

/-- The last comparison is left out for an exponent of 64, which any numerator meets. -/
theorem biasCheck_iff (numerator exponent : Word) :
    biasCheck numerator exponent = true ↔ BiasOperands numerator exponent := by
  have hzero : numerator = 0 ↔ numerator.toNat = 0 := BitVec.toNat_eq
  have hone : exponent < 1 ↔ exponent.toNat < 1 := BitVec.lt_def
  have habove : exponent > 64 ↔ 64 < exponent.toNat := BitVec.lt_def
  have hbelow : exponent < 64 ↔ exponent.toNat < 64 := BitVec.lt_def
  have hword : exponent.toNat = 64 → numerator.toNat < 2 ^ exponent.toNat := fun h => by
    rw [h]
    exact numerator.isLt
  simp only [biasCheck, BiasOperands, hzero, hone, habove, hbelow]
  split_ifs <;> simp only [false_iff, true_iff] <;> omega

/-- Settles O42: the comparisons of words are those of their numbers. -/
theorem biasCheckEnforcesTheBounds : Obligations.BiasCheckEnforcesTheBounds := biasCheck_iff

theorem construct_of_unknown_kind {k : BitVec 8} {s : State} (hv : s.valid = false) (h0 : k ≠ 0x00#8) (h1 : k ≠ 0x01#8) :
    exec (.construct k) s = .next (s.raise .argumentOutOfBounds) := by
  rw [exec, execConstruct, hv, if_neg Bool.false_ne_true, kindOfBits, if_neg h0, if_neg h1]

theorem exec_bias_of_not_check {s : State} (hv : s.valid = true) (h : biasCheck s.lA s.lB = false) :
    exec .bias s = .next (s.raise .argumentOutOfBounds) :=
  exec_of_not_operandsOk rfl hv h

/-- Settles O31: each of the three checks raises. -/
theorem operandChecksComeSecond : Obligations.OperandChecksComeSecond := fun _ =>
  ⟨fun hv _ => construct_of_unknown_kind hv, exec_rand_of_lt,
    fun hv h => exec_bias_of_not_check hv (Bool.eq_false_iff.2 fun hc => h ((biasCheck_iff _ _).1 hc))⟩

section
variable {numerator exponent : Word} (h : biasCheck numerator exponent = true)
include h

theorem ne_zero_of_biasCheck : numerator ≠ 0 := by
  obtain ⟨hpos, _⟩ := (biasCheck_iff numerator exponent).1 h
  rintro rfl
  exact absurd hpos (by decide)

/-- The bit at OFFSET is the lowest one bit, and the numerator has no bit from the exponent up. -/
theorem biasOffset_lt : biasOffset numerator < exponent.toNat := by
  obtain ⟨_, _, _, hlt⟩ := (biasCheck_iff numerator exponent).1 h
  obtain ⟨_, hbit, _⟩ := ctz64_spec numerator (ne_zero_of_biasCheck h)
  exact (Nat.pow_lt_pow_iff_right one_lt_two).1 ((Nat.ge_two_pow_of_testBit hbit).trans_lt hlt)

theorem biasOffset_add_biasSpan : biasOffset numerator + biasSpan numerator exponent = exponent.toNat :=
  Nat.add_sub_of_le (biasOffset_lt h).le

theorem biasSpan_pos : 0 < biasSpan numerator exponent := Nat.sub_pos_of_lt (biasOffset_lt h)

theorem biasSpan_le_64 : biasSpan numerator exponent ≤ 64 := by
  obtain ⟨_, _, hle, _⟩ := (biasCheck_iff numerator exponent).1 h
  exact (Nat.sub_le _ _).trans hle

/-- The numerator loses only zeros when it is shifted right by OFFSET. -/
theorem numerator_div_mul_biasOffset :
    numerator.toNat / 2 ^ biasOffset numerator * 2 ^ biasOffset numerator = numerator.toNat := by
  obtain ⟨_, _, hbelow⟩ := ctz64_spec numerator (ne_zero_of_biasCheck h)
  refine Nat.div_mul_cancel (Nat.dvd_of_mod_eq_zero (Nat.eq_of_testBit_eq fun i => ?_))
  rw [Nat.testBit_mod_two_pow, Nat.zero_testBit, BitVec.testBit_toNat]
  by_cases hi : i < biasOffset numerator
  · rw [hbelow i hi, Bool.and_false]
  · rw [decide_eq_false hi, Bool.false_and]

theorem numerator_div_biasOffset_odd : numerator.toNat / 2 ^ biasOffset numerator % 2 = 1 := by
  obtain ⟨_, hbit, _⟩ := ctz64_spec numerator (ne_zero_of_biasCheck h)
  rw [← Nat.toNat_testBit, BitVec.testBit_toNat, biasOffset, hbit, Bool.toNat_true]

theorem numerator_div_biasOffset_lt :
    numerator.toNat / 2 ^ biasOffset numerator < 2 ^ biasSpan numerator exponent := by
  obtain ⟨_, _, _, hlt⟩ := (biasCheck_iff numerator exponent).1 h
  rw [← biasOffset_add_biasSpan h, pow_add] at hlt
  exact Nat.div_lt_of_lt_mul hlt

end

/-- Settles O43: the odd factor is the numerator shifted right by OFFSET. -/
theorem offsetAndSpanFactorTheNumerator : Obligations.OffsetAndSpanFactorTheNumerator := by
  intro numerator exponent h
  obtain ⟨_, hbit, hbelow⟩ := ctz64_spec numerator (ne_zero_of_biasCheck h)
  exact ⟨biasOffset_lt h, rfl, biasSpan_pos h, biasSpan_le_64 h, hbit, hbelow, _, numerator_div_biasOffset_odd h,
    numerator_div_biasOffset_lt h, (numerator_div_mul_biasOffset h).symm⟩

end Sys2Proof.Machine

namespace Sys2Proof.Machine

/-! ### BIAS -/

theorem biasFold_nil (numerator : Word) (k : Nat) (acc : Word) : biasFold numerator k acc [] = acc := by
  rw [biasFold]

theorem biasFold_cons (numerator : Word) (k : Nat) (acc d : Word) (ds : List Word) :
    biasFold numerator k acc (d :: ds) =
      biasFold numerator (k + 1) (biasStep (numerator.getLsbD (biasOffset numerator + k)) acc d) ds := by
  rw [biasFold]

section
variable {numerator exponent : Word} {k : Nat} (acc d : Word)

theorem biasPiece_of_lt (h : k + 1 < biasSpan numerator exponent) : biasPiece numerator exponent k acc d =
    .more (k + 1) (biasStep (numerator.getLsbD (biasOffset numerator + k)) acc d) := by
  rw [biasPiece, if_pos h]

theorem biasPiece_of_last (h : k + 1 = biasSpan numerator exponent) : biasPiece numerator exponent k acc d =
    .word (biasStep (numerator.getLsbD (biasOffset numerator + k)) acc d) := by
  rw [biasPiece, if_neg h.not_lt]

/-- The draws that an element still needs finish it, and the next one begins afresh. -/
theorem elements_biasPiece_append (ds rest : List Word) (hk : k < biasSpan numerator exponent)
    (h : k + ds.length = biasSpan numerator exponent) : elements (biasPiece numerator exponent) k acc (ds ++ rest) =
      biasFold numerator k acc ds :: elements (biasPiece numerator exponent) 0 0 rest := by
  induction ds generalizing k acc with
  | nil => exact absurd h hk.ne
  | cons d ds ih =>
    rw [List.length_cons, ← Nat.succ_add_eq_add_succ] at h
    rw [List.cons_append, biasFold_cons]
    by_cases hlast : k + 1 = biasSpan numerator exponent
    · have hds : ds = [] := List.eq_nil_of_length_eq_zero (by omega)
      rw [elements_of_word (biasPiece_of_last acc d hlast), hds, List.nil_append, biasFold_nil]
    · have hlt : k + 1 < biasSpan numerator exponent := by omega
      rw [elements_of_more (biasPiece_of_lt acc d hlt), ih _ hlt h]

/-- Each SPAN draws finish an element. -/
theorem elements_biasPiece_length (ds : List Word) (hk : k < biasSpan numerator exponent) :
    (elements (biasPiece numerator exponent) k acc ds).length = (k + ds.length) / biasSpan numerator exponent := by
  induction ds generalizing k acc with
  | nil => exact (Nat.div_eq_of_lt hk).symm
  | cons d ds ih =>
    rw [List.length_cons, ← Nat.succ_add_eq_add_succ]
    by_cases hlast : k + 1 = biasSpan numerator exponent
    · rw [elements_of_word (biasPiece_of_last acc d hlast), List.length_cons, ih 0 (by omega), Nat.succ_eq_add_one, hlast,
        Nat.zero_add, Nat.add_comm _ ds.length, Nat.add_div_right _ (by omega)]
    · have hlt : k + 1 < biasSpan numerator exponent := by omega
      rw [elements_of_more (biasPiece_of_lt acc d hlt), ih _ hlt]

end

/-- The first element is made of the first SPAN draws, and the others of the stream after them. -/
theorem biasElements_succ (kind : GenKind) (inc s numerator : Word) (span count : Nat) :
    biasElements kind inc s numerator span (count + 1) = biasFold numerator 0 0 (rawStream kind inc span s) ::
      biasElements kind inc (advanceN kind inc span s) numerator span count := by
  simp only [biasElements, List.range_succ_eq_map, List.map_cons, List.map_map, Nat.zero_mul, advanceN]
  congr 1
  refine List.map_congr_left fun j _ => ?_
  rw [Function.comp_apply, Nat.succ_mul, Nat.add_comm, advanceN_add]

/-- The elements of `count * SPAN` draws (42_sampling.md R143). -/
theorem elements_biasPiece_rawStream {numerator exponent : Word} (hspan : 0 < biasSpan numerator exponent) (kind : GenKind)
    (inc s : Word) (count : Nat) :
    elements (biasPiece numerator exponent) 0 0 (rawStream kind inc (count * biasSpan numerator exponent) s) =
      biasElements kind inc s numerator (biasSpan numerator exponent) count := by
  induction count generalizing s with
  | zero => rw [Nat.zero_mul]; rfl
  | succ count ih =>
    rw [Nat.succ_mul, Nat.add_comm, rawStream_add, biasElements_succ, ← ih,
      elements_biasPiece_append 0 _ _ hspan (by rw [rawStream_length, Nat.zero_add])]

theorem exec_bias_completes {s : State} (hs : s.startsSampling) (hc : biasCheck s.lA s.lB = true)
    (hr : s.roomFor s.lN.toNat) (hm : s.lN.toNat * (biasSpan s.lA s.lB + 1) + 1 ≤ s.slice) : exec .bias s = .next
      (s.sampled (advanceN s.kind s.regInc (s.lN.toNat * biasSpan s.lA s.lB) s.regS)
        (biasElements s.kind s.regInc s.regS s.lA (biasSpan s.lA s.lB) s.lN.toNat)) := by
  have hspan := biasSpan_pos hc
  have length : ∀ l, (elements (biasPiece s.lA s.lB) 0 0 (rawStream s.kind s.regInc l s.regS)).length =
      l / biasSpan s.lA s.lB := fun l => by
    rw [elements_biasPiece_length 0 _ hspan, rawStream_length, Nat.zero_add]
  rw [← elements_biasPiece_rawStream hspan]
  refine exec_completes (i := .bias) rfl hs hc hr hm ?_ fun l hl => ?_
  · exact (length _).trans (Nat.mul_div_cancel _ hspan)
  · exact (length l).trans_lt ((Nat.div_lt_iff_lt_mul hspan).2 hl)

/-- Settles O44: each SPAN draws are folded into an element. -/
theorem biasEmitsItsElements : Obligations.BiasEmitsItsElements :=
  ⟨fun _ hv => exec_of_not_valid rfl hv, fun _ => exec_bias_of_not_check, fun _ => exec_bias_completes,
    fun numerator k acc d ds => ⟨biasFold_nil numerator k acc, biasFold_cons numerator k acc d ds⟩⟩

/-- With SPAN = 1 an element begun afresh is one draw: the bit at OFFSET is 1, and the draw goes by OR into 0. -/
theorem biasPiece_of_span_one {numerator exponent : Word} (h : biasCheck numerator exponent = true)
    (hspan : biasSpan numerator exponent = 1) (d : Word) : biasPiece numerator exponent 0 0 d = .word d := by
  obtain ⟨_, hbit, _⟩ := ctz64_spec numerator (ne_zero_of_biasCheck h)
  rw [biasPiece_of_last 0 d hspan.symm, Nat.add_zero, biasOffset, hbit, biasStep, if_pos rfl]
  exact congrArg Piece.word BitVec.zero_or

/-- Settles O46: from the start of the command on, each element is begun with the working values 0 and 0. -/
theorem biasOfOneHalfIsRaw : Obligations.BiasOfOneHalfIsRaw := by
  intro s hs hc hspan
  obtain ⟨_, hv, hw⟩ := hs
  have hrun : sampleRun (biasPiece s.lA s.lB) s.slice s = sampleRun rawPiece s.slice s := by
    refine sampleRun_congr (fun k acc => k = 0 ∧ acc = 0) ?_ ⟨rfl, rfl⟩ s.slice s
      ⟨congrArg Work.k hw, congrArg Work.acc hw⟩
    rintro k acc d ⟨rfl, rfl⟩
    exact ⟨biasPiece_of_span_one hc hspan d, fun _ _ hmore => by cases hmore⟩
  rw [exec_of_operandsOk (i := .bias) rfl hv hc, exec_of_operandsOk (i := .next) rfl hv rfl]
  exact congrArg _ hrun

/-! ### BIAS, one lane -/

section
variable (numerator : Word) {lane : Nat}

/-- The lanes of `biasStep` are independent (42_sampling.md R142). -/
theorem biasStep_getLsbD (bit : Bool) (acc d : Word) : (biasStep bit acc d).getLsbD lane =
    if bit then acc.getLsbD lane || d.getLsbD lane else acc.getLsbD lane && d.getLsbD lane := by
  cases bit
  · exact BitVec.getLsbD_and
  · exact BitVec.getLsbD_or

theorem biasFold_getLsbD_congr {ds ds' : List Word} (hds : ds.map (·.getLsbD lane) = ds'.map (·.getLsbD lane)) (k : Nat)
    {acc acc' : Word} (hacc : acc.getLsbD lane = acc'.getLsbD lane) :
    (biasFold numerator k acc ds).getLsbD lane = (biasFold numerator k acc' ds').getLsbD lane := by
  induction ds generalizing ds' k acc acc' with
  | nil => rw [List.map_eq_nil_iff.1 hds.symm, biasFold_nil, biasFold_nil, hacc]
  | cons d ds ih =>
    cases ds' with
    | nil => cases hds
    | cons d' ds' =>
      obtain ⟨hd, hds⟩ : d.getLsbD lane = d'.getLsbD lane ∧ _ := List.cons.inj hds
      rw [biasFold_cons, biasFold_cons]
      exact ih hds (k + 1) (by rw [biasStep_getLsbD, biasStep_getLsbD, hacc, hd])

theorem countP_laneDraws_succ (p : List Word → Bool) (n : Nat) : (laneDraws (n + 1)).countP p =
    (laneDraws n).countP (fun ds => p (0#64 :: ds)) + (laneDraws n).countP (fun ds => p (BitVec.allOnes 64 :: ds)) := by
  rw [laneDraws]
  induction laneDraws n with
  | nil => rfl
  | cons ds rest ih =>
    simp only [List.flatMap_cons, List.countP_append, ih, List.countP_cons, List.countP_nil]
    omega

theorem laneDraws_length (n : Nat) : (laneDraws n).length = 2 ^ n := by
  induction n with
  | zero => rfl
  | succ n ih =>
    have h := countP_laneDraws_succ (fun _ => true) n
    simp only [List.countP_true, ih] at h
    rw [h, pow_succ, Nat.mul_two]

/-- A draw of 0 in the lane and a draw of 1 together give as many ones as the numerator's bit and the lane hold. -/
theorem biasStep_lane_count (hl : lane < 64) (bit : Bool) (acc : Word) :
    ((biasStep bit acc 0#64).getLsbD lane).toNat + ((biasStep bit acc (BitVec.allOnes 64)).getLsbD lane).toNat =
      bit.toNat + (acc.getLsbD lane).toNat := by
  rw [biasStep_getLsbD, biasStep_getLsbD, BitVec.getLsbD_zero, BitVec.getLsbD_allOnes, decide_eq_true hl]
  cases bit <;> cases acc.getLsbD lane <;> rfl

/-- The number made of `n + 1` bits from bit `i` up is its lowest bit and twice the number made of the others. -/
theorem div_two_pow_mod_two_pow_succ (x i n : Nat) :
    x / 2 ^ i % 2 ^ (n + 1) = (x.testBit i).toNat + 2 * (x / 2 ^ (i + 1) % 2 ^ n) := by
  rw [pow_succ', Nat.mod_mul, Nat.div_div_eq_div_mul, ← pow_succ, Nat.toNat_testBit]

/-- How many outcomes of the next `n` draws give a one: the number made of the next `n` bits of the numerator, and one more
when the lane holds a one already. -/
theorem countP_biasFold (hl : lane < 64) (n k : Nat) (acc : Word) :
    (laneDraws n).countP (fun ds => (biasFold numerator k acc ds).getLsbD lane) =
      numerator.toNat / 2 ^ (biasOffset numerator + k) % 2 ^ n + (acc.getLsbD lane).toNat := by
  induction n generalizing k acc with
  | zero =>
    rw [laneDraws, List.countP_singleton, biasFold_nil, pow_zero, Nat.mod_one, Nat.zero_add]
    cases acc.getLsbD lane <;> rfl
  | succ n ih =>
    have hstep := biasStep_lane_count hl (numerator.getLsbD (biasOffset numerator + k)) acc
    simp only [countP_laneDraws_succ, biasFold_cons, ih]
    rw [div_two_pow_mod_two_pow_succ, BitVec.testBit_toNat, Nat.add_assoc _ k 1]
    omega

end

/-- Settles O45: the outcomes that give a one are as many as the numerator shifted right by OFFSET. -/
theorem biasIsExact : Obligations.BiasIsExact := by
  intro numerator exponent h lane hl
  refine ⟨fun _ _ hds => biasFold_getLsbD_congr numerator hds 0 rfl, laneDraws_length _, ?_⟩
  have hlane : ((0 : Word).getLsbD lane).toNat = 0 := congrArg Bool.toNat BitVec.getLsbD_zero
  have hcount := countP_biasFold numerator hl (biasSpan numerator exponent) 0 0
  rw [Nat.add_zero, Nat.mod_eq_of_lt (numerator_div_biasOffset_lt h), hlane, Nat.add_zero,
    List.countP_eq_length_filter] at hcount
  rw [hcount, ← biasOffset_add_biasSpan h, pow_add, ← Nat.mul_assoc, numerator_div_mul_biasOffset h]

end Sys2Proof.Machine

namespace Sys2Proof.Machine

/-! ### The lifecycle: DESTROY, and commands that find VALID as they must not -/

/-- Settles O29: the block which DESTROY leaves is empty, and a non-zero seed constructs on any empty block. -/
theorem destroyInvalidatesTheInstance : Obligations.DestroyInvalidatesTheInstance := by
  refine fun s => ⟨fun hv => ⟨_, destroy_of_valid hv, rfl, rfl, rfl, rfl, fun seed hseed => ?_⟩, destroy_of_not_valid⟩
  obtain ⟨hpcg, _⟩ := constructFromNonzeroSeed { s.discard.succeed with lA := seed } rfl hseed
  exact ⟨_, hpcg, rfl⟩

theorem construct_of_valid (k : BitVec 8) {s : State} (hv : s.valid = true) :
    exec (.construct k) s = .next (s.raise .invalidInstance) := by
  rw [exec, execConstruct, if_pos hv]

/-- Settles O30: the check of VALID is every command's first. -/
theorem lifecycleMisuseIsInvalidInstance : Obligations.LifecycleMisuseIsInvalidInstance := by
  refine fun s => ⟨fun hv k => construct_of_valid k hv, fun hv i hi => ?_⟩
  by_cases hsampling : isSampling i = true
  · exact exec_of_not_valid hsampling hv
  · rcases not_sampling hsampling with rfl | ⟨k, rfl⟩
    · exact destroy_of_not_valid hv
    · exact absurd rfl (hi k)

end Sys2Proof.Machine

namespace Sys2Proof.Machine

/-! ### The record of failures -/

/-- The record is as before and no running command has failed, or the code with which one has just failed has joined
it. -/
def RecordEffect (s t : State) : Prop :=
  (t.failed = s.failed ∧ (s.phase = .run → t.phase = .idle → t.code = .success)) ∨
  (t.failed = s.failed ++ [t.code] ∧ t.code ≠ .success ∧ s.phase = .run ∧ t.phase = .idle)

theorem recordEffect_of_same_phase {s t : State} (hf : t.failed = s.failed) (hp : t.phase = s.phase) :
    RecordEffect s t :=
  .inl ⟨hf, fun hr hi => absurd (hr.symm.trans (hp.symm.trans hi)) (by decide)⟩

theorem exec_recordEffect {i : Instr} {s t : State} (hr : s.phase = .run) (he : exec i s = .next t) :
    RecordEffect s t := by
  rcases exec_runsOrCompletes hr he with ⟨hp, _, hf⟩ | ⟨_, hc, hf⟩ | ⟨hp, hc, hf⟩
  · exact recordEffect_of_same_phase hf (hp.trans hr.symm)
  · exact .inl ⟨hf, fun _ _ => hc⟩
  · exact .inr ⟨hf, hc, hr, hp⟩

theorem step_recordEffect {s t : State} (h : step s = .next t) : RecordEffect s t := by
  have key := step_induct RecordEffect
    (script := fun _ _ _ _ h => h) (rests := fun _ => recordEffect_of_same_phase rfl rfl)
    (observes := fun _ _ _ => recordEffect_of_same_phase rfl rfl)
    (pops := fun _ _ _ _ => recordEffect_of_same_phase rfl rfl)
    (accepts := fun _ _ _ => .inl ⟨rfl, fun _ hi => by cases hi⟩)
    (operands := fun _ _ _ _ => recordEffect_of_same_phase rfl rfl)
    (answers := fun _ _ _ => recordEffect_of_same_phase rfl rfl)
    (illegal := fun _ hr => .inr ⟨rfl, by simp, hr, rfl⟩) (commands := fun _ _ _ hr _ he => exec_recordEffect hr he) h
  rcases key with ⟨_, _, _, _, rfl⟩ | key
  · exact .inl ⟨rfl, fun _ _ => rfl⟩
  · exact key

/-- Settles O57: only a command's move writes the record, and RESET, which ends a running command, leaves CODE at
SUCCESS. -/
theorem failuresAreRecordedForEver : Obligations.FailuresAreRecordedForEver := by
  refine ⟨fun s t h => (step_recordEffect h).imp And.left id, fun s t h hr hi hc => ?_⟩
  rcases step_recordEffect h with ⟨_, hs⟩ | ⟨hf, _⟩
  · exact absurd (hs hr hi) hc
  · exact hf

/-! ### The codes that are raised -/

theorem succeed_codeInv {s : State} (h : CodeInv s) : CodeInv s.succeed := ⟨by simp, h.2⟩

theorem raise_codeInv {s : State} {c : ResultCode} (hs : c ≠ .success) (ha : c ≠ .allocationFailure) (h : CodeInv s) :
    CodeInv (s.raise c) := by
  refine ⟨ha, fun d hd => ?_⟩
  rcases List.mem_append.1 hd with hd | hd
  · exact h.2 d hd
  · rw [List.mem_singleton.1 hd]
    exact ⟨ha, hs⟩

theorem sampleRun_codeInv (piece : Nat → Word → Word → Piece) (n : Nat) {s : State} (h : CodeInv s) :
    CodeInv (sampleRun piece n s) := by
  refine sampleRun_induct (P := CodeInv) (fun u hu _ hst => ?_) n s h
  rcases sampleTick_cases (piece := piece) u hst with
    ⟨v, _, _, e⟩ | ⟨_, _, v, _, e⟩ | ⟨_, _, k, acc, _, e⟩ | ⟨_, _, e⟩ <;> rw [e]
  · exact hu
  · exact hu
  · exact hu
  · exact succeed_codeInv hu

theorem exec_codeInv {i : Instr} {s t : State} (he : exec i s = .next t) (h : CodeInv s) : CodeInv t := by
  cases exec_effect he with
  | samples => exact sampleRun_codeInv _ _ h
  | discards | buildsPcg | buildsXs => exact succeed_codeInv h
  | waits => exact h
  | exhausts => exact raise_codeInv (by decide) (by decide) h
  | fails c hs ha => exact raise_codeInv hs ha h

/-- Settles O52: no command raises ALLOCATION_FAILURE or SUCCESS, and nothing but a command's move and RESET writes
CODE. -/
theorem everyStepKeepsCodesLegal : Obligations.EveryStepKeepsCodesLegal := by
  intro s t hs h
  have key := step_induct (fun s t => CodeInv s → CodeInv t)
    (script := fun _ _ _ _ h => h) (rests := fun _ h => h) (observes := fun _ _ _ h => h)
    (pops := fun _ _ _ _ h => h) (accepts := fun _ _ _ h => h) (operands := fun _ _ _ _ h => h)
    (answers := fun _ _ _ h => h) (illegal := fun _ _ => raise_codeInv (by decide) (by decide))
    (commands := fun _ _ _ _ _ he => exec_codeInv he) h
  rcases key with ⟨_, _, _, _, rfl⟩ | key
  · exact ⟨fun hc => (by cases hc), hs.2⟩
  · exact key hs

theorem sampleRun_code_of_idle {piece : Nat → Word → Word → Piece} {n : Nat} {s : State} (hr : s.phase = .run)
    (hi : (sampleRun piece n s).phase = .idle) : (sampleRun piece n s).code = .success := by
  rcases sampleRun_success (piece := piece) n s hr with hp | ⟨_, hc⟩
  · exact absurd (hp.symm.trans hi) (by decide)
  · exact hc

/-- The codes of the sampling commands: SUCCESS, or that of the operand check, or that of the check of VALID. -/
theorem sampling_codes {i : Instr} (hi : isSampling i = true) {s t : State} (hr : s.phase = .run)
    (he : exec i s = .next t) (ht : t.phase = .idle) :
    t.code = .success ∨ (t.code = .argumentOutOfBounds ∧ operandsOk i s = false) ∨
      (t.code = .invalidInstance ∧ s.valid = false) := by
  rcases sampling_cases hi he with ⟨_, _, rfl⟩ | ⟨_, ho, rfl⟩ | ⟨hv, rfl⟩
  · exact .inl (sampleRun_code_of_idle hr ht)
  · exact .inr (.inl ⟨rfl, ho⟩)
  · exact .inr (.inr ⟨rfl, hv⟩)

/-- A sampling command without operand checks, NEXT or UNID, has the code of the check of VALID only. -/
theorem sampling_codes_of_operandsOk {i : Instr} (hi : isSampling i = true) {s t : State} (ho : operandsOk i s = true)
    (hr : s.phase = .run) (he : exec i s = .next t) (ht : t.phase = .idle) :
    t.code = .success ∨ (t.code = .invalidInstance ∧ s.valid = false) := by
  rcases sampling_codes hi hr he ht with hc | ⟨_, ho'⟩ | hc
  · exact .inl hc
  · exact absurd (ho.symm.trans ho') (by decide)
  · exact .inr hc

theorem ArbiterFrame.phase_eq {s t : State} (h : ArbiterFrame s t) : t.phase = s.phase := by
  obtain ⟨_, _, rfl⟩ := arbiterFrame_iff.1 h
  rfl

theorem construct_codes {k : BitVec 8} {s t : State} (hr : s.phase = .run) (he : exec (.construct k) s = .next t)
    (ht : t.phase = .idle) :
    t.code = .success ∨ (t.code = .hardwareEntropyExhausted ∧ s.lA = 0) ∨
      (t.code = .argumentOutOfBounds ∧ k ≠ 0x00#8 ∧ k ≠ 0x01#8) ∨ (t.code = .invalidInstance ∧ s.valid = true) := by
  rcases construct_cases he with ⟨hv, rfl⟩ | ⟨_, h0, h1, rfl⟩ | ⟨_, _, _, _, _, rfl⟩ | ⟨_, _, _, _, _, rfl⟩ |
    ⟨_, hA, _, _, rfl⟩ | ⟨_, _, hw, _⟩
  · exact .inr (.inr (.inr ⟨rfl, hv⟩))
  · exact .inr (.inr (.inl ⟨rfl, h0, h1⟩))
  · exact .inl rfl
  · exact .inl rfl
  · exact .inr (.inl ⟨rfl, hA⟩)
  · exact absurd (hr.symm.trans (hw.phase_eq.symm.trans ht)) (by decide)

theorem destroy_codes {s t : State} (he : exec .destroy s = .next t) :
    t.code = .success ∨ (t.code = .invalidInstance ∧ s.valid = false) := by
  rcases destroy_cases he with ⟨_, rfl⟩ | ⟨hv, rfl⟩
  · exact .inl rfl
  · exact .inr ⟨rfl, hv⟩

/-- Settles O32: RAND and BIAS fail their operand check only where the table's condition holds. -/
theorem codesOfEachCommand : Obligations.CodesOfEachCommand := by
  intro i s t hr he ht
  cases i with
  | construct k => exact construct_codes hr he ht
  | destroy => exact destroy_codes he
  | next => exact sampling_codes_of_operandsOk (i := .next) rfl rfl hr he ht
  | unid => exact sampling_codes_of_operandsOk (i := .unid) rfl rfl hr he ht
  | rand =>
    have hlt : operandsOk .rand s = false → s.lB < s.lA := fun ho => by simpa [operandsOk] using ho
    exact (sampling_codes (i := .rand) rfl hr he ht).imp_right (Or.imp_left (And.imp_right hlt))
  | bias =>
    have hbounds : operandsOk .bias s = false →
        ¬ (0 < s.lA.toNat ∧ 1 ≤ s.lB.toNat ∧ s.lB.toNat ≤ 64 ∧ s.lA.toNat < 2 ^ s.lB.toNat) := fun ho hb =>
      Bool.eq_false_iff.1 ho ((biasCheck_iff _ _).2 hb)
    exact (sampling_codes (i := .bias) rfl hr he ht).imp_right (Or.imp_left (And.imp_right hbounds))

/-! ### What a failing command leaves unchanged -/

/-- The second state is the first after a failing command: CODE, PHASE and the record of failures differ, and the
answers used and the working values (60_exceptions.md R184). -/
def FailureFrame (s t : State) : Prop :=
  t = { s with code := t.code, phase := .idle, failed := s.failed ++ [t.code], answers := t.answers, work := t.work }

theorem exec_failureFrame {i : Instr} {s t : State} (hr : s.phase = .run) (he : exec i s = .next t)
    (ht : t.phase = .idle) (hc : t.code ≠ .success) :
    FailureFrame s t ∧ (t.answers = s.answers ∨ t.code = .hardwareEntropyExhausted) := by
  cases exec_effect he with
  | samples => exact absurd (sampleRun_code_of_idle hr ht) hc
  | discards | buildsPcg | buildsXs => exact absurd rfl hc
  | waits => exact absurd (hr.symm.trans ht) (by decide)
  | exhausts => exact ⟨rfl, .inr rfl⟩
  | fails => exact ⟨rfl, .inl rfl⟩

theorem construct_running_arbiterFrame {k : BitVec 8} {s t : State} (he : exec (.construct k) s = .next t)
    (ht : t.phase = .run) : ArbiterFrame s t := by
  cases construct_effect he with
  | samples hi => cases hi
  | discards hi => cases hi
  | buildsPcg | buildsXs | exhausts | fails => cases ht
  | waits => rfl

/-- Among the commands but CONSTRUCT only a sampling command whose checks have passed is left running. -/
theorem running_of_not_construct {i : Instr} {s t : State} (he : exec i s = .next t) (ht : t.phase = .run)
    (hi : ∀ k, i ≠ .construct k) : isSampling i = true ∧ t.valid = true ∧ operandsOk i t = true := by
  cases exec_effect he with
  | samples hs hv ho =>
    refine ⟨hs, (sampleRun_valid _ _ _).trans hv, ?_⟩
    rw [operandsOk_congr i (sampleRun_lA _ _ _) (sampleRun_lB _ _ _), ho]
  | waits k _ _ hk => exact absurd hk (hi k)
  | discards | buildsPcg | buildsXs | exhausts | fails => cases ht

/-- A sampling command that goes on makes its checks again, on the same latches and VALID, whatever the host has read
from OQ and whatever slice the engine has. -/
theorem resumed_sampling_succeeds {i : Instr} {t u : State} (hi : isSampling i = true) (hv : t.valid = true)
    (ho : operandsOk i t = true) (hr : t.phase = .run) (q : List Word) (n : Nat)
    (he : exec i { t with oq := q, slice := n } = .next u) (hu : u.phase = .idle) : u.code = .success := by
  rw [exec_of_same_latches (s := t) (t := { t with oq := q, slice := n }) hi hv rfl rfl ho] at he
  cases he
  exact sampleRun_code_of_idle (s := { t with oq := q, slice := n }) hr hu

/-- Settles O33: a command fails by `raise`, after the arbiter at most; a sampling command makes its checks before its
first draw, on latches and VALID that its run leaves as they are. -/
theorem failedCommandsChangeNothing : Obligations.FailedCommandsChangeNothing := by
  refine fun i s t hr he => ⟨exec_failureFrame hr he, ?_, fun ht hi q n u hu => ?_⟩
  · rintro ht ⟨k, rfl⟩
    exact construct_running_arbiterFrame he ht
  · obtain ⟨hs, hv, ho⟩ := running_of_not_construct he ht hi
    exact resumed_sampling_succeeds hs hv ho ht q n hu

end Sys2Proof.Machine

namespace Sys2Proof.Machine

/-! ### Acquisitions that wait for entropy -/

/-- The state with these answers of the entropy source to come. -/
def State.withAnswers (as : List Answer) (s : State) : State := { s with answers := as }

@[simp] theorem State.withAnswers_valid (as : List Answer) (s : State) : (s.withAnswers as).valid = s.valid := rfl
@[simp] theorem State.withAnswers_lA (as : List Answer) (s : State) : (s.withAnswers as).lA = s.lA := rfl
@[simp] theorem State.withAnswers_work (as : List Answer) (s : State) : (s.withAnswers as).work = s.work := rfl
@[simp] theorem State.withAnswers_self (s : State) : s.withAnswers s.answers = s := rfl

/-- An acquisition that has used its answers goes on with later ones, with the attempts it has left. -/
theorem acquire_append_of_waiting {zg : Bool} {left used : Nat} {as rest : List Answer} (hl : left ≤ retryLimit)
    (h : acquire zg left as = (.waiting used, rest)) (later : List Answer) :
    acquire zg left (as ++ later) = acquire zg (retryLimit - used) later := by
  induction as generalizing left with
  | nil =>
    cases left with
    | zero => simp [acquire] at h
    | succ left =>
      obtain ⟨rfl, rfl⟩ : retryLimit - (left + 1) = used ∧ [] = rest := by simpa [acquire] using h
      rw [List.nil_append, Nat.sub_sub_self hl]
  | cons a as ih =>
    cases left with
    | zero => simp [acquire] at h
    | succ left =>
      rw [acquire] at h
      rw [List.cons_append, acquire]
      split_ifs at h ⊢
      · cases h
      · exact ih (Nat.le_of_succ_le hl) h

/-- Answers after the accepted one stay unused. -/
theorem acquire_append_of_value {zg : Bool} {left : Nat} {as rest : List Answer} {v : Word}
    (h : acquire zg left as = (.value v, rest)) (later : List Answer) :
    acquire zg left (as ++ later) = (.value v, rest ++ later) := by
  induction as generalizing left with
  | nil => cases left <;> simp [acquire] at h
  | cons a as ih =>
    cases left with
    | zero => simp [acquire] at h
    | succ left =>
      rw [acquire] at h
      rw [List.cons_append, acquire]
      split_ifs at h ⊢
      · obtain ⟨rfl, rfl⟩ : a.v = v ∧ as = rest := by simpa using h
        rfl
      · exact ih h

theorem withAcquired_of_value {zg : Bool} (done : Word → State → State) {s : State} {v : Word} {rest : List Answer}
    (h : acquire zg (retryLimit - s.work.attempts) s.answers = (.value v, rest)) :
    withAcquired zg done s = done v (s.arbiter rest 0 false) := by
  rw [withAcquired, h]

/-- The arbiter's writes cover the answers and all of the working values that a waiting acquisition has changed. -/
theorem withAcquired_of_waiting {zg : Bool} (done : Word → State → State) {s : State} {used : Nat}
    (h : acquire zg (retryLimit - s.work.attempts) s.answers = (.waiting used, [])) (later : List Answer) :
    withAcquired zg done ((s.arbiter [] used true).withAnswers later) =
      withAcquired zg done (s.withAnswers (s.answers ++ later)) := by
  have hacq := acquire_append_of_waiting (Nat.sub_le _ _) h later
  simp only [withAcquired, State.withAnswers, State.arbiter, hacq]

/-- Where a seeding procedure has left the command running, it goes on with later answers as if they had been there. -/
def Resumes (seed : State → State) : Prop :=
  ∀ s : State, (seed s).phase = .run → ∀ later,
    seed ((seed s).withAnswers later) = seed (s.withAnswers (s.answers ++ later))

theorem withAcquired_resumes {zg : Bool} {done : Word → State → State} (hdone : ∀ v s, (done v s).phase = .idle) :
    Resumes (withAcquired zg done) := by
  intro s hr later
  rcases withAcquired_cases zg done s with ⟨v, rest, e, _⟩ | ⟨rest, e, _⟩ | ⟨used, e, hacq⟩ <;> rw [e] at hr ⊢
  · rw [hdone] at hr; cases hr
  · cases hr
  · exact withAcquired_of_waiting done hacq later

theorem pcgSeedSecond_resumes (first : Word) : Resumes (pcgSeedSecond first) :=
  withAcquired_resumes fun _ _ => rfl

theorem xsSeedHw_resumes : Resumes xsSeedHw := withAcquired_resumes fun _ _ => rfl

theorem pcgSeedHw_of_first {s : State} {first : Word} (h : s.work.first = some first) :
    pcgSeedHw s = pcgSeedSecond first s := by
  rw [pcgSeedHw, h]

/-- What `pcg_seed_hw` does with the value of its first acquisition (41_generator_core.md R114). -/
def pcgSeedAfterFirst (v : Word) (s : State) : State := pcgSeedSecond v (s.keepFirst v)

theorem pcgSeedHw_of_no_first {s : State} (h : s.work.first = none) :
    pcgSeedHw s = withAcquired false pcgSeedAfterFirst s := by
  rw [pcgSeedHw, h]
  rfl

/-- While it waits, the second acquisition keeps the value of the first. -/
theorem pcgSeedSecond_first {s : State} {first : Word} (hr : (pcgSeedSecond first s).phase = .run) :
    (pcgSeedSecond first s).work.first = s.work.first := by
  rcases withAcquired_cases false (fun v s' => (s'.installPcg first v).succeed) s with
    ⟨v, rest, e, _⟩ | ⟨rest, e, _⟩ | ⟨used, e, _⟩ <;> rw [pcgSeedSecond, e] at hr ⊢
  · cases hr
  · cases hr
  · rfl

/-- The wait is in the second acquisition of a command whose first has ended, now or earlier, or in the first. -/
theorem pcgSeedHw_resumes : Resumes pcgSeedHw := by
  intro s hr later
  cases hf : s.work.first with
  | some first =>
    rw [pcgSeedHw_of_first hf] at hr ⊢
    have hf' := (pcgSeedSecond_first hr).trans hf
    rw [pcgSeedHw_of_first (first := first) (by simpa using hf'),
      pcgSeedHw_of_first (first := first) (by simpa using hf)]
    exact pcgSeedSecond_resumes first s hr later
  | none =>
    rw [pcgSeedHw_of_no_first hf] at hr ⊢
    rw [pcgSeedHw_of_no_first (s := s.withAnswers (s.answers ++ later)) hf]
    rcases withAcquired_cases false pcgSeedAfterFirst s with
      ⟨v, rest, e, hacq⟩ | ⟨rest, e, _⟩ | ⟨used, e, hacq⟩ <;> rw [e] at hr ⊢
    · have hfirst : (pcgSeedAfterFirst v (s.arbiter rest 0 false)).work.first = some v := pcgSeedSecond_first hr
      have hacq' := acquire_append_of_value hacq later
      rw [pcgSeedHw_of_first (first := v) (by simpa using hfirst),
        withAcquired_of_value (s := s.withAnswers (s.answers ++ later)) pcgSeedAfterFirst hacq']
      exact pcgSeedSecond_resumes v _ hr later
    · cases hr
    · rw [pcgSeedHw_of_no_first (s := (s.arbiter [] used true).withAnswers later) hf]
      exact withAcquired_of_waiting pcgSeedAfterFirst hacq later

/-- A CONSTRUCT that is left running has passed its checks, has no seed, and waits for the answer to a request. -/
theorem construct_running {k : BitVec 8} {s t : State} (he : exec (.construct k) s = .next t) (ht : t.phase = .run) :
    s.valid = false ∧ s.lA = 0 ∧ ArbiterFrame s t ∧ t.answers = [] ∧ t.work.inFlight = true := by
  rcases construct_cases he with ⟨_, rfl⟩ | ⟨_, _, _, rfl⟩ | ⟨_, _, _, _, _, rfl⟩ | ⟨_, _, _, _, _, rfl⟩ |
    ⟨_, _, _, _, rfl⟩ | h
  pick_goal 6
  · exact h
  all_goals cases ht

theorem construct_pcg_of_no_seed {s : State} (hv : s.valid = false) (hA : s.lA = 0) :
    exec (.construct 0x00#8) s = .next (pcgSeedHw s) := by
  rw [construct_pcg hv, if_neg (not_not_intro hA)]

/-- A CONSTRUCT with a seeding procedure that resumes goes on with later answers as if they had been there. -/
theorem construct_resumes {k : BitVec 8} {s t : State} (he : exec (.construct k) s = .next t) (ht : t.phase = .run)
    (later : List Answer) :
    exec (.construct k) (t.withAnswers later) = exec (.construct k) (s.withAnswers (s.answers ++ later)) := by
  obtain ⟨hv, hA, hframe, _, _⟩ := construct_running he ht
  have hv' : t.valid = false := by rw [hframe]; exact hv
  have hA' : t.lA = 0 := by rw [hframe]; exact hA
  have resumes {seed : State → State} (hseed : Resumes seed)
      (hexec : ∀ u : State, u.valid = false → u.lA = 0 → exec (.construct k) u = .next (seed u)) :
      exec (.construct k) (t.withAnswers later) = exec (.construct k) (s.withAnswers (s.answers ++ later)) := by
    obtain rfl : seed s = t := Host.Outcome.next.inj ((hexec s hv hA).symm.trans he)
    rw [hexec ((seed s).withAnswers later) hv' hA', hexec (s.withAnswers (s.answers ++ later)) hv hA, hseed s ht]
  by_cases h0 : k = 0x00#8
  · subst h0
    exact resumes pcgSeedHw_resumes fun _ => construct_pcg_of_no_seed
  by_cases h1 : k = 0x01#8
  · subst h1
    exact resumes xsSeedHw_resumes fun _ => construct_xs_of_zero_seed
  · rw [construct_of_unknown_kind hv h0 h1] at he
    cases he
    cases ht

/-- Settles O28. The bound on the attempts is not needed: an acquisition has at most ten left, whatever it has used. -/
theorem entropyArrivalTimeDoesNotMatter : Obligations.EntropyArrivalTimeDoesNotMatter := by
  intro k s t later _ _ he ht
  obtain ⟨_, _, _, hans, _⟩ := construct_running he ht
  exact ⟨hans, construct_resumes he ht later⟩

end Sys2Proof.Machine

namespace Sys2Proof.Machine

/-! ### The element counter of a sampling command -/

/-- OQ has grown by as many words as the element counter, which is at most `count`, is less while a word is due, and is
`count` once the command has completed (70_reset_and_hazards.md R216). -/
def CountsWords (s t : State) : Prop :=
  (∃ ws, t.oq = s.oq ++ ws ∧ t.work.j = s.work.j + ws.length) ∧
    t.work.j ≤ t.lN.toNat ∧ (t.work.pending ≠ none → t.work.j < t.lN.toNat) ∧ (t.phase = .idle → t.work.j = t.lN.toNat)

theorem sampleTick_countsWords (piece : Nat → Word → Word → Piece) {s t : State} (h : CountsWords s t)
    (hst : t.stalled = false) : CountsWords s (sampleTick piece t) := by
  obtain ⟨⟨ws, hq, hj⟩, hle, hlt, hdone⟩ := h
  rcases sampleTick_cases (piece := piece) t hst with
    ⟨v, hp, _, e⟩ | ⟨_, hn, v, _, e⟩ | ⟨_, _, k, acc, _, e⟩ | ⟨_, hn, e⟩ <;> rw [e]
  · have hn := hlt (by simp [hp])
    exact ⟨⟨ws ++ [v], by simp [hq], by simp [hj, Nat.add_assoc]⟩, hn, fun hne => absurd rfl hne,
      fun hidle => absurd (hdone hidle) (Nat.ne_of_lt hn)⟩
  · exact ⟨⟨ws, hq, hj⟩, hle, fun _ => hn, hdone⟩
  · exact ⟨⟨ws, hq, hj⟩, hle, hlt, hdone⟩
  · exact ⟨⟨ws, hq, hj⟩, hle, hlt, fun _ => Nat.le_antisymm hle (Nat.le_of_not_lt hn)⟩

theorem sampleRun_countsWords (piece : Nat → Word → Word → Piece) (n : Nat) {s : State} (h : CountsWords s s) :
    CountsWords s (sampleRun piece n s) :=
  sampleRun_induct (P := CountsWords s) (fun _ hu _ hst => sampleTick_countsWords piece hu hst) n s h

/-- Settles O47: a run counts the words it emits, and a failing command emits none. -/
theorem successMeansCountWords : Obligations.SuccessMeansCountWords := by
  intro i s t hi hr hle hlt he
  have hs : CountsWords s s := ⟨⟨[], by simp⟩, hle, hlt, fun hidle => by rw [hr] at hidle; cases hidle⟩
  rcases sampling_cases ((isSampling_iff i).2 hi) he with ⟨_, _, rfl⟩ | ⟨_, _, rfl⟩ | ⟨_, rfl⟩
  · obtain ⟨hq, hle', hlt', hdone⟩ := sampleRun_countsWords (pieceOf i s) s.slice hs
    exact ⟨hq, hle', hlt', fun hidle _ => by rw [hdone hidle, sampleRun_lN]⟩
  · exact ⟨hs.1, hle, hlt, fun _ hc => by cases hc⟩
  · exact ⟨hs.1, hle, hlt, fun _ hc => by cases hc⟩

end Sys2Proof.Machine

namespace Sys2Proof.Machine

/-! ### Time -/

theorem sampleRun_withSlice (piece : Nat → Word → Word → Piece) (m n : Nat) (s : State) :
    sampleRun piece n (s.withSlice m) = (sampleRun piece n s).withSlice m :=
  sampleRun_comm (State.withSlice m) (fun _ => rfl) (fun _ => rfl)
    (sampleTick_comm (State.withSlice m) (fun _ => rfl) (fun _ => rfl) (fun _ => rfl) (fun _ => rfl)
      (fun _ _ => rfl) (fun _ _ => rfl) (fun _ _ _ => rfl) (fun _ => rfl)) n s

/-- CONSTRUCT does not read the slice. -/
theorem construct_withSlice (k : BitVec 8) (n : Nat) {s t : State} (h : exec (.construct k) s = .next t) :
    exec (.construct k) (s.withSlice n) = .next (t.withSlice n) :=
  construct_comm (State.withSlice n) (fun _ => rfl) (fun _ => rfl) (fun _ => rfl) (fun _ => rfl)
    (fun _ _ _ _ => rfl) (fun _ _ => rfl) (fun _ _ => rfl) (fun _ _ => rfl) (fun _ _ _ => rfl) (fun _ => rfl) k h

/-- A CONSTRUCT that waits for entropy goes on waiting until an answer comes. -/
theorem construct_running_again {k : BitVec 8} {s t : State} (he : exec (.construct k) s = .next t)
    (ht : t.phase = .run) : exec (.construct k) t = .next t := by
  obtain ⟨_, _, _, hans, _⟩ := construct_running he ht
  have h := construct_resumes he ht t.answers
  rwa [hans, List.append_nil, ← hans, State.withAnswers_self, State.withAnswers_self, he] at h

/-- A sampling command whose checks pass runs for the slice it is given. -/
theorem exec_withSlice {i : Instr} (hi : isSampling i = true) {s : State} (hv : s.valid = true)
    (ho : operandsOk i s = true) (n : Nat) :
    exec i (s.withSlice n) = .next ((sampleRun (pieceOf i s) n s).withSlice n) :=
  (exec_of_same_latches (t := s.withSlice n) hi hv rfl rfl ho).trans (congrArg _ (sampleRun_withSlice _ n n s))

/-- Two runs of a sampling command are one run for the time of both. -/
theorem sampling_slices {i : Instr} (hi : isSampling i = true) {s t : State} {a : Nat}
    (he : exec i (s.withSlice a) = .next t) (ht : t.phase = .run) (b : Nat) :
    ∃ u : State, exec i (t.withSlice b) = .next (u.withSlice b) ∧
      exec i (s.withSlice (a + b)) = .next (u.withSlice (a + b)) := by
  rcases sampling_runs_or_raises hi s with ⟨hv, ho⟩ | ⟨c, hc⟩
  · let v := sampleRun (pieceOf i s) a s
    have hA : v.lA = s.lA := sampleRun_lA _ _ _
    have hB : v.lB = s.lB := sampleRun_lB _ _ _
    obtain rfl : v.withSlice a = t := Host.Outcome.next.inj ((exec_withSlice hi hv ho a).symm.trans he)
    have hagain := exec_withSlice hi ((sampleRun_valid _ _ _).trans hv) ((operandsOk_congr i hA hB).trans ho) b
    rw [pieceOf_congr i hA hB, ← sampleRun_add] at hagain
    exact ⟨sampleRun (pieceOf i s) (a + b) s, hagain, exec_withSlice hi hv ho (a + b)⟩
  · rw [hc (s.withSlice a) rfl rfl rfl] at he
    cases he
    cases ht

/-- Settles O49: a sampling run is a number of micro-operations, and a CONSTRUCT that waits makes none. -/
theorem timeSlicingDoesNotMatter : Obligations.TimeSlicingDoesNotMatter := by
  intro i s t a b he ht
  by_cases hk : ∃ k, i = .construct k
  · obtain ⟨k, rfl⟩ := hk
    exact ⟨t, construct_withSlice k b (construct_running_again he ht),
      construct_withSlice (s := s.withSlice a) k (a + b) he⟩
  · obtain ⟨hi, _, _⟩ := running_of_not_construct he ht (not_exists.1 hk)
    exact sampling_slices (s := s) hi he ht b

end Sys2Proof.Machine

namespace Sys2Proof.Machine

/-! ### RESET, and accesses while BUSY -/

theorem step_of_entropy {s : State} {a : Answer} {rest : List Event} (h : s.script = .entropy a :: rest) :
    step s = .next (State.answered a { s with script := rest }) := by
  rw [step, stepWith, h]

theorem requestInFlight_iff (s : State) : s.requestInFlight = true ↔ s.phase = .run ∧ s.work.inFlight = true := by
  simp [State.requestInFlight]

/-- RESET touches no answer if no request is in flight. -/
theorem resetBlock_of_no_request {s : State} (h : ¬ (s.phase = .run ∧ s.work.inFlight = true)) :
    s.resetBlock.answers = s.answers ∧ s.resetBlock.dropped = s.dropped := by
  simp [State.resetBlock, Bool.eq_false_iff.2 (mt (requestInFlight_iff s).1 h)]

/-- The answer to the request in flight has come and is lost (70_reset_and_hazards.md R211). -/
theorem resetBlock_of_answer {s : State} (h : s.phase = .run ∧ s.work.inFlight = true) {a : Answer} {as : List Answer}
    (ha : s.answers = a :: as) : s.resetBlock.answers = as ∧ s.resetBlock.dropped = s.dropped := by
  simp [State.resetBlock, (requestInFlight_iff s).2 h, ha]

/-- The answer to the request in flight is still to come and will be ignored (70_reset_and_hazards.md R211). -/
theorem resetBlock_of_no_answer {s : State} (h : s.phase = .run ∧ s.work.inFlight = true) (ha : s.answers = []) :
    s.resetBlock.answers = [] ∧ s.resetBlock.dropped = s.dropped + 1 := by
  simp [State.resetBlock, (requestInFlight_iff s).2 h, ha]

/-- STATUS shows nothing of what RESET leaves. -/
theorem statusWord_resetBlock (s : State) : statusWord s.resetBlock = 0 := (by decide : statusWord State.reset = 0)

theorem answered_of_dropped {s : State} (h : 0 < s.dropped) (a : Answer) :
    s.answered a = { s with dropped := s.dropped - 1 } := by
  rw [State.answered, if_neg (Nat.ne_of_gt h)]

theorem answered_of_none_dropped {s : State} (h : s.dropped = 0) (a : Answer) :
    s.answered a = { s with answers := s.answers ++ [a] } := by
  rw [State.answered, if_pos h, h]

/-- Settles O14: RESET and an answer each do one thing to the requests, and a CONSTRUCT runs on only to wait. -/
theorem resetAbandonsRunningCommand : Obligations.ResetAbandonsRunningCommand := by
  refine ⟨fun s rest h => ?_, fun s a rest h => ⟨fun hd => ?_, fun hd => ?_⟩, fun k s t he ht => ?_⟩
  · let u : State := { s with script := rest }
    exact ⟨_, step_of_reset h, rfl, rfl, rfl, rfl, rfl, rfl, rfl, rfl, statusWord_resetBlock _, rfl, rfl, rfl,
      resetBlock_of_no_request (s := u),
      fun hp hf => ⟨fun _ _ => resetBlock_of_answer (s := u) ⟨hp, hf⟩, resetBlock_of_no_answer (s := u) ⟨hp, hf⟩⟩⟩
  · rw [step_of_entropy h, answered_of_dropped (s := { s with script := rest }) hd]
  · rw [step_of_entropy h, answered_of_none_dropped (s := { s with script := rest }) hd]
  · obtain ⟨_, _, _, _, hinFlight⟩ := construct_running he ht
    exact hinFlight

theorem hostWrite_of_busy {s : State} {r : Reg} (h : writable r = true) (hp : s.phase = .run) {bytes : List Byte}
    (hl : bytes.length = 8) : hostWrite (regAddr s.platform.base r) bytes s = .refused (.writeWhileBusy r) := by
  simp only [hostWrite, writeTarget, hl, regAt_regAddr, h, if_true, hp]

/-- `R reg` of R79, answered. -/
theorem step_of_readEvent {s s' : State} {r : Reg} {v : Word} {rest : List Event}
    (h : s.script = readEvent s.platform.base r :: rest) (hr : readReg r { s with script := rest } = some (v, s')) :
    step s = .next (s'.observe r v) := by
  rw [step_of_read h]
  exact hostRead_of_readReg hr

/-- Settles O20: only a write looks at PHASE; a read is answered by `readReg`. -/
theorem busyBlockRefusesWrites : Obligations.BusyBlockRefusesWrites := by
  intro s rest
  refine ⟨fun hp r v hr h => ?_, fun h => step_of_readEvent h rfl, fun h => step_of_readEvent h rfl,
    fun h => step_of_readEvent h rfl, fun h => step_of_readEvent h rfl, fun w ws hq h => ?_⟩
  · rw [step_of_write h]
    exact hostWrite_of_busy (s := { s with script := rest }) ((writable_iff r).2 hr) hp (bytesOfWord_length v)
  · rw [step_of_readEvent h (readReg_dout_cons (s := { s with script := rest }) hq)]
    simp only [State.popped, State.observe, hq, List.tail_cons]

end Sys2Proof.Machine
